-- ==== Sys2Proof/Word.lean ====
section
/-! DEFINITION. The machine's words: bytes, command words, four-byte strings and sixteen-byte blocks. -/

namespace Sys2Proof

/-- A byte (00_scope.md section 6). -/
abbrev Byte := BitVec 8

/-- A command word, the operand of `HostIssue` (R50). -/
abbrev Word := BitVec 32

/-- A four-byte string, byte 0 first: a MIC (R180), a word of the key schedule (R84), and a column of
the AES state array, whose row r is byte r (R81). -/
structure Quad where
  r0 : Byte
  r1 : Byte
  r2 : Byte
  r3 : Byte
  deriving DecidableEq, Repr, Inhabited

/-- A sixteen-byte string, as four four-byte strings in order: a key, a cipher block, a tag, CFList
(R15, R17, R61). Byte `r + 4c` is row r of column c, which is how R81 fills the AES state array. -/
structure Block where
  c0 : Quad
  c1 : Quad
  c2 : Quad
  c3 : Quad
  deriving DecidableEq, Repr, Inhabited

/-- Bytewise exclusive-or of two four-byte strings. -/
def Quad.xor (a b : Quad) : Quad :=
  ⟨a.r0 ^^^ b.r0, a.r1 ^^^ b.r1, a.r2 ^^^ b.r2, a.r3 ^^^ b.r3⟩

/-- Bytewise exclusive-or of two blocks (`xor` of 00_scope.md section 6). -/
def Block.xor (a b : Block) : Block :=
  ⟨a.c0.xor b.c0, a.c1.xor b.c1, a.c2.xor b.c2, a.c3.xor b.c3⟩

/-- The four-byte string of zeros. -/
def Quad.zero : Quad := ⟨0, 0, 0, 0⟩

/-- `zeros(16)`. -/
def Block.zero : Block := ⟨Quad.zero, Quad.zero, Quad.zero, Quad.zero⟩

end Sys2Proof
end

