-- ==== Sys2Proof/Machine/Bytes.lean ====
section
/-! DEFINITION. Byte strings (00_scope.md section 6): slices, the integers they stand for in either
byte order, sixteen-byte blocks. -/

namespace Sys2Proof.Machine

/-- `slice(B, a, n)`: the n bytes of B from index a. -/
def slice (b : List Byte) (a n : Nat) : List Byte := (b.drop a).take n

/-- `B[i]`; 0 past the end, where no rule of the spec reads (R36; log entry 14). -/
def byteAt (b : List Byte) (i : Nat) : Byte := b.getD i 0

/-- `zeros(n)`. -/
def zeros (n : Nat) : List Byte := List.replicate n 0

/-- `int_le(B)`, the sum over i of B[i] * 2^(8i). -/
def intLe : List Byte → Nat
  | [] => 0
  | b :: bs => b.toNat + 256 * intLe bs

/-- `int_be(B)`, byte 0 most significant. -/
def intBe (b : List Byte) : Nat := intLe b.reverse

/-- `le(n, v)`: the n-byte string whose byte i is `v[8i+7:8i]`. -/
def leBytes : Nat → Nat → List Byte
  | 0, _ => []
  | n + 1, v => BitVec.ofNat 8 v :: leBytes n (v / 256)

/-- `xor(A, B)` of two strings; the result is as long as the shorter. -/
def xorBytes (a b : List Byte) : List Byte := List.zipWith (fun x y => x ^^^ y) a b

/-- The bytes of a four-byte string, byte 0 first. -/
def quadBytes (q : Quad) : List Byte := [q.r0, q.r1, q.r2, q.r3]

/-- The four-byte string at index a of B. -/
def quadAt (b : List Byte) (a : Nat) : Quad :=
  ⟨byteAt b a, byteAt b (a + 1), byteAt b (a + 2), byteAt b (a + 3)⟩

/-- The bytes of a block, byte 0 first (R38). -/
def blockBytes (k : Block) : List Byte :=
  quadBytes k.c0 ++ quadBytes k.c1 ++ quadBytes k.c2 ++ quadBytes k.c3

/-- The block whose bytes are the first sixteen of B, in order (R81). -/
def blockOf (b : List Byte) : Block := ⟨quadAt b 0, quadAt b 4, quadAt b 8, quadAt b 12⟩

/-- `ceil(n / 16)`, the number of sixteen-byte blocks that n bytes begin (R3 (f)). -/
def blockCount (n : Nat) : Nat := (n + 15) / 16

end Sys2Proof.Machine
end

