-- ==== Sys2Proof/Machine/Aes.lean ====
section
/-! DEFINITION. Unit U1's function: AES-128, encrypt direction only (40_aes_ecb.md R80 to R90). -/

namespace Sys2Proof.Machine

/-- `xtime(b)` in GF(2^8) modulo 0x11B (R82). -/
def xtime (b : Byte) : Byte := if b.msb then (b <<< 1) ^^^ 0x1B#8 else b <<< 1

/-- The exclusive-or, over the bits set in `bits` (least significant first), of `xtime` applied that
many times to `a`. -/
def gmulBits (a : Byte) : List Bool → Byte
  | [] => 0
  | bit :: bits => (if bit then a else 0) ^^^ gmulBits (xtime a) bits

/-- `gmul(a, b)`: multiplication in GF(2^8) (R82). -/
def gmul (a b : Byte) : Byte :=
  gmulBits a [b.getLsbD 0, b.getLsbD 1, b.getLsbD 2, b.getLsbD 3, b.getLsbD 4, b.getLsbD 5,
    b.getLsbD 6, b.getLsbD 7]

/-- The substitution table of R83: entry for byte 0xXY at row X, column Y. -/
def sboxTable : List (List Byte) :=
  [[0x63, 0x7c, 0x77, 0x7b, 0xf2, 0x6b, 0x6f, 0xc5, 0x30, 0x01, 0x67, 0x2b, 0xfe, 0xd7, 0xab, 0x76],
   [0xca, 0x82, 0xc9, 0x7d, 0xfa, 0x59, 0x47, 0xf0, 0xad, 0xd4, 0xa2, 0xaf, 0x9c, 0xa4, 0x72, 0xc0],
   [0xb7, 0xfd, 0x93, 0x26, 0x36, 0x3f, 0xf7, 0xcc, 0x34, 0xa5, 0xe5, 0xf1, 0x71, 0xd8, 0x31, 0x15],
   [0x04, 0xc7, 0x23, 0xc3, 0x18, 0x96, 0x05, 0x9a, 0x07, 0x12, 0x80, 0xe2, 0xeb, 0x27, 0xb2, 0x75],
   [0x09, 0x83, 0x2c, 0x1a, 0x1b, 0x6e, 0x5a, 0xa0, 0x52, 0x3b, 0xd6, 0xb3, 0x29, 0xe3, 0x2f, 0x84],
   [0x53, 0xd1, 0x00, 0xed, 0x20, 0xfc, 0xb1, 0x5b, 0x6a, 0xcb, 0xbe, 0x39, 0x4a, 0x4c, 0x58, 0xcf],
   [0xd0, 0xef, 0xaa, 0xfb, 0x43, 0x4d, 0x33, 0x85, 0x45, 0xf9, 0x02, 0x7f, 0x50, 0x3c, 0x9f, 0xa8],
   [0x51, 0xa3, 0x40, 0x8f, 0x92, 0x9d, 0x38, 0xf5, 0xbc, 0xb6, 0xda, 0x21, 0x10, 0xff, 0xf3, 0xd2],
   [0xcd, 0x0c, 0x13, 0xec, 0x5f, 0x97, 0x44, 0x17, 0xc4, 0xa7, 0x7e, 0x3d, 0x64, 0x5d, 0x19, 0x73],
   [0x60, 0x81, 0x4f, 0xdc, 0x22, 0x2a, 0x90, 0x88, 0x46, 0xee, 0xb8, 0x14, 0xde, 0x5e, 0x0b, 0xdb],
   [0xe0, 0x32, 0x3a, 0x0a, 0x49, 0x06, 0x24, 0x5c, 0xc2, 0xd3, 0xac, 0x62, 0x91, 0x95, 0xe4, 0x79],
   [0xe7, 0xc8, 0x37, 0x6d, 0x8d, 0xd5, 0x4e, 0xa9, 0x6c, 0x56, 0xf4, 0xea, 0x65, 0x7a, 0xae, 0x08],
   [0xba, 0x78, 0x25, 0x2e, 0x1c, 0xa6, 0xb4, 0xc6, 0xe8, 0xdd, 0x74, 0x1f, 0x4b, 0xbd, 0x8b, 0x8a],
   [0x70, 0x3e, 0xb5, 0x66, 0x48, 0x03, 0xf6, 0x0e, 0x61, 0x35, 0x57, 0xb9, 0x86, 0xc1, 0x1d, 0x9e],
   [0xe1, 0xf8, 0x98, 0x11, 0x69, 0xd9, 0x8e, 0x94, 0x9b, 0x1e, 0x87, 0xe9, 0xce, 0x55, 0x28, 0xdf],
   [0x8c, 0xa1, 0x89, 0x0d, 0xbf, 0xe6, 0x42, 0x68, 0x41, 0x99, 0x2d, 0x0f, 0xb0, 0x54, 0xbb, 0x16]]

/-- `SBOX[x]` (R83). -/
def sbox (x : Byte) : Byte := (sboxTable.getD (x.toNat / 16) []).getD (x.toNat % 16) 0

/-- Bit i of the affine map A of R83, with c = 0x63. -/
def affineBit (b : Byte) (i : Nat) : Bool :=
  b.getLsbD i ^^ b.getLsbD ((i + 4) % 8) ^^ b.getLsbD ((i + 5) % 8) ^^ b.getLsbD ((i + 6) % 8) ^^
    b.getLsbD ((i + 7) % 8) ^^ (0x63#8).getLsbD i

/-- The affine map A of R83. The cipher does not use it: it is the spec's other definition of the
table. -/
def affine (b : Byte) : Byte :=
  BitVec.ofBool (affineBit b 7) ++ BitVec.ofBool (affineBit b 6) ++ BitVec.ofBool (affineBit b 5) ++
    BitVec.ofBool (affineBit b 4) ++ BitVec.ofBool (affineBit b 3) ++ BitVec.ofBool (affineBit b 2) ++
    BitVec.ofBool (affineBit b 1) ++ BitVec.ofBool (affineBit b 0)

/-- `SBOX` applied to each of four bytes: `SubWord` of R84, and one column of `SubBytes`. -/
def subQuad (q : Quad) : Quad := ⟨sbox q.r0, sbox q.r1, sbox q.r2, sbox q.r3⟩

/-- `RotWord([a,b,c,d]) = [b,c,d,a]` (R84). -/
def rotWord (q : Quad) : Quad := ⟨q.r1, q.r2, q.r3, q.r0⟩

/-- `RCON[1..10]` (R84). -/
def rconTable : List Byte := [0x01, 0x02, 0x04, 0x08, 0x10, 0x20, 0x40, 0x80, 0x1B, 0x36]

/-- The four words w[4r], ..., w[4r+3] of the key schedule from the four before them, with the round
constant RCON[r] (R84): only the first of the four is substituted and rotated. -/
def nextRoundKey (k : Block) (rcon : Byte) : Block :=
  let t := subQuad (rotWord k.c3)
  let w0 := k.c0.xor ⟨t.r0 ^^^ rcon, t.r1, t.r2, t.r3⟩
  let w1 := k.c1.xor w0
  let w2 := k.c2.xor w1
  let w3 := k.c3.xor w2
  ⟨w0, w1, w2, w3⟩

/-- The round keys that follow round key k, one for each round constant (R84). -/
def roundKeysAfter (k : Block) : List Byte → List Block
  | [] => []
  | rcon :: rest => nextRoundKey k rcon :: roundKeysAfter (nextRoundKey k rcon) rest

/-- `KeyExpand(key)`: the eleven round keys rk_0 to rk_10; rk_0 is the key (R84). -/
def keyExpand (key : Block) : List Block := key :: roundKeysAfter key rconTable

/-- `SubBytes(s)` (R85). -/
def subBytes (s : Block) : Block := ⟨subQuad s.c0, subQuad s.c1, subQuad s.c2, subQuad s.c3⟩

/-- `ShiftRows(s)`: row r is rotated left by r columns (R86). -/
def shiftRows (s : Block) : Block :=
  ⟨⟨s.c0.r0, s.c1.r1, s.c2.r2, s.c3.r3⟩, ⟨s.c1.r0, s.c2.r1, s.c3.r2, s.c0.r3⟩,
   ⟨s.c2.r0, s.c3.r1, s.c0.r2, s.c1.r3⟩, ⟨s.c3.r0, s.c0.r1, s.c1.r2, s.c2.r3⟩⟩

/-- One column of `MixColumns` (R87). -/
def mixColumn (a : Quad) : Quad :=
  ⟨gmul a.r0 2 ^^^ gmul a.r1 3 ^^^ a.r2 ^^^ a.r3,
   a.r0 ^^^ gmul a.r1 2 ^^^ gmul a.r2 3 ^^^ a.r3,
   a.r0 ^^^ a.r1 ^^^ gmul a.r2 2 ^^^ gmul a.r3 3,
   gmul a.r0 3 ^^^ a.r1 ^^^ a.r2 ^^^ gmul a.r3 2⟩

/-- `MixColumns(s)` (R87). -/
def mixColumns (s : Block) : Block := ⟨mixColumn s.c0, mixColumn s.c1, mixColumn s.c2, mixColumn s.c3⟩

/-- One of the nine full rounds (R88). -/
def fullRound (s rk : Block) : Block := (mixColumns (shiftRows (subBytes s))).xor rk

/-- The last round, which has no `MixColumns` (R88). -/
def lastRound (s rk : Block) : Block := (shiftRows (subBytes s)).xor rk

/-- The rounds after the initial exclusive-or, one for each round key: the last of them has no
`MixColumns` (R88). -/
def rounds (s : Block) : List Block → Block
  | [] => s
  | [rk] => lastRound s rk
  | rk :: rest => rounds (fullRound s rk) rest

/-- `AesEnc(key, block)` (R88): the initial exclusive-or with rk_0, which is the key, and then the
rounds under rk_1 to rk_10. -/
def aesEnc (key block : Block) : Block := rounds (block.xor key) (keyExpand key).tail

/-- `EcbEnc` of n blocks: each block of the string is encrypted alone (R90). -/
def ecbBlocks (key : Block) : Nat → List Byte → List Byte
  | 0, _ => []
  | n + 1, e => blockBytes (aesEnc key (blockOf e)) ++ ecbBlocks key n (e.drop 16)

/-- `EcbEnc(key, E)`, len(E) a multiple of 16 (R90). -/
def ecbEnc (key : Block) (e : List Byte) : List Byte := ecbBlocks key (e.length / 16) e

end Sys2Proof.Machine
end

