-- ==== Sys2Proof/Config.lean ====
section
/-! DEFINITION. What the spec fixes as a parameter (00_scope.md section 5) and what it leaves open. -/

namespace Sys2Proof

/-- `NBUF`, the capacity of each byte buffer (R16). -/
def Config.nbuf : Nat := 256

/-- `XW`, the widest field `XBITS` returns, in bits (R113). -/
def Config.xw : Nat := 64

/-- `MIC11`, the data-frame MIC of version 1.1 (R184): a total function of FNwkSIntKey, SNwkSIntKey,
direction, DevAddr, FCnt32 and the message to a four-byte string, of which the spec asserts nothing
else. It has no body, so nothing can be proved of its values. Log entry 5. -/
opaque Config.mic11 : Block → Block → BitVec 1 → BitVec 32 → BitVec 32 → List Byte → Quad

/-- The draws of R11: `freeRead n` is the value that the n-th `HostRead` of an invalid register or key
slot returns ("any value of the register's width (a draw; two reads may differ)"), before it is cut to
that width. It has no body. Log entry 3. -/
opaque Config.freeRead : Nat → BitVec 128

end Sys2Proof
end

