-- ==== Sys2Proof/Syntax.lean ====
section
/-! DEFINITION. The thirteen commands (R52), the names of registers, key slots and buffers
(10_state.md), and the host's actions (R11). -/

namespace Sys2Proof

/-- The eight key slots of R15, in the order of their numbers. -/
inductive Slot where
  | appkey
  | nwkkey
  | nwkskey
  | appskey
  | fnwksintkey
  | snwksintkey
  | nwksenckey
  | userkey
  deriving DecidableEq, Repr

/-- The thirteen commands of R52, one constructor for each row of spec/opcode_table.json. `ks` is the
key slot field `KS`, `le` the little-endian flag `LE` (R50). -/
inductive Instr where
  | nop
  | clr
  | aesenc (ks : Slot)
  | cmac (ks : Slot)
  | xbits (le : Bool)
  | parse
  | decode
  | kdf
  | derive
  | kstream (ks : Slot)
  | crypt (ks : Slot)
  | cmic
  | vmic
  deriving DecidableEq, Repr

/-- The three byte buffers (R16). -/
inductive Buf where
  | ibuf
  | abuf
  | obuf
  deriving DecidableEq, Repr

/-- Every location of the register space (R14 to R25, R35), by the name the spec gives it. A buffer
and its length register have a name each (R16). -/
inductive RegName where
  | cmd
  | err
  | erracc
  | ver
  | fcnthi
  | blk
  | cDir
  | cDevaddr
  | cFcnt32
  | cBlkidx
  | xByteoff
  | xBitoff
  | xWidth
  | nAppnonce
  | nId
  | nDevnonce
  | oblk
  | xVal
  | fKind
  | fMtype
  | fMhdrRfu
  | fMajor
  | fJoineui
  | fDeveui
  | fDevnonce
  | fAppnonce
  | fNetid
  | fDevaddr
  | fDlsettings
  | fOptneg
  | fRx1droffset
  | fRx2datarate
  | fRxdelay
  | fCflist
  | key (s : Slot)
  | fDir
  | fFctrl
  | fAdr
  | fAdrackreq
  | fAck
  | fFpending
  | fClassb
  | fFoptslen
  | fFcnt16
  | fFcnt32
  | fFoptsOff
  | fFport
  | fFrmOff
  | fFrmLen
  | fPayEnc
  | micInframe
  | micDerived
  | micOk
  | buffer (b : Buf)
  | length (b : Buf)
  deriving DecidableEq, Repr

/-- The value of a location as the host writes or reads it: an unsigned integer, or a byte string for
the sixteen-byte registers, the key slots and the buffers (00_scope.md section 6). -/
inductive RegValue where
  | num (v : Nat)
  | bytes (b : List Byte)
  deriving DecidableEq, Repr

/-- What the host can do to the block: the five actions of R11, and the reset event of R240, which is
outside the five. -/
inductive HostAction where
  | write (r : RegName) (v : RegValue)
  | writeKey (s : Nat) (b : List Byte)
  | load (buf : Buf) (b : List Byte)
  | read (r : RegName)
  | issue (w : Word)
  | reset
  deriving DecidableEq, Repr

/-- What a `HostRead` returns (R11): the pair of valid flag and value for a register or key slot, the
bytes for a buffer, which has no valid flag. -/
inductive ReadResult where
  | register (valid : Bool) (v : RegValue)
  | buffer (b : List Byte)
  deriving DecidableEq, Repr

end Sys2Proof
end

