-- ==== Sys2Proof/Machine/State.lean ====
section
/-! DEFINITION. The state of LWCORE (10_state.md R10 to R28), the reasons a step can stop, and the state
after reset. A register that carries a valid flag is an `Option`: `none` is the spec's own value, flag 0
(R13; log entry 4). -/

namespace Sys2Proof.Machine

/-- One byte buffer (R16): its bytes with their addresses, addresses 0 to length - 1 in rising order.
An address that is not listed holds nothing and cannot be read. The length register of R16 is the
number of bytes listed (log entries 6 and 7). -/
abbrev Memory := List Host.Cell

/-- The key file (R15): slot s holds `none` when `KV[s]` = 0. -/
structure KeyFile where
  appkey : Option Block
  nwkkey : Option Block
  nwkskey : Option Block
  appskey : Option Block
  fnwksintkey : Option Block
  snwksintkey : Option Block
  nwksenckey : Option Block
  userkey : Option Block
  deriving DecidableEq, Repr

/-- The parsed-field registers `F_*` (R22), in the order of the table. -/
structure Fields where
  kind : Option (BitVec 3)
  mtype : Option (BitVec 3)
  mhdrRfu : Option (BitVec 3)
  major : Option (BitVec 2)
  joineui : Option (BitVec 64)
  deveui : Option (BitVec 64)
  devnonce : Option (BitVec 16)
  appnonce : Option (BitVec 24)
  netid : Option (BitVec 24)
  devaddr : Option (BitVec 32)
  dlsettings : Option (BitVec 8)
  optneg : Option (BitVec 1)
  rx1droffset : Option (BitVec 4)
  rx2datarate : Option (BitVec 4)
  rxdelay : Option (BitVec 8)
  cflist : Option Block
  dir : Option (BitVec 1)
  fctrl : Option (BitVec 8)
  adr : Option (BitVec 1)
  adrackreq : Option (BitVec 1)
  ack : Option (BitVec 1)
  fpending : Option (BitVec 1)
  classb : Option (BitVec 1)
  foptslen : Option (BitVec 4)
  fcnt16 : Option (BitVec 16)
  fcnt32 : Option (BitVec 32)
  foptsOff : Option (BitVec 9)
  fport : Option (BitVec 8)
  frmOff : Option (BitVec 9)
  frmLen : Option (BitVec 9)
  payEnc : Option (BitVec 1)
  deriving DecidableEq, Repr

/-- The MIC registers `MIC_INFRAME`, `MIC_DERIVED`, `MIC_OK` (R23). -/
structure MicRegs where
  inframe : Option (BitVec 32)
  derived : Option (BitVec 32)
  ok : Option (BitVec 1)
  deriving DecidableEq, Repr

/-- The outcomes of a command (R210), code 0 apart. `truncatedCommand` is reserved: no command
produces it (R214). -/
inductive ErrCode where
  | rangeError
  | malformedFrame
  | invalidJoinPair
  | truncatedCommand
  | illegalCommand
  | illegalOperand
  | keyUnavailable
  deriving DecidableEq, Repr

/-- The complete state (R10), and after it three fields of the model's own: the host's remaining
actions, what the host has been answered, and the number of free values drawn. -/
structure State where
  /-- `VER` (R14). -/
  ver : Option (BitVec 2)
  /-- `FCNTHI` (R21). -/
  fcnthi : BitVec 16
  /-- `ERR` (R25). -/
  err : BitVec 3
  /-- `ERRACC` (R25). -/
  erracc : BitVec 8
  /-- `K[0..7]` and `KV[0..7]` (R15). -/
  keys : KeyFile
  /-- `IBUF` and `ILEN` (R16). -/
  ibuf : Memory
  /-- `ABUF` and `ALEN` (R16). -/
  abuf : Memory
  /-- `OBUF` and `OLEN` (R16). -/
  obuf : Memory
  /-- `BLK` (R17). -/
  blk : Option Block
  /-- `OBLK` (R17). -/
  oblk : Option Block
  /-- `C_DIR` (R18). -/
  cDir : Option (BitVec 1)
  /-- `C_DEVADDR` (R18). -/
  cDevaddr : Option (BitVec 32)
  /-- `C_FCNT32` (R18). -/
  cFcnt32 : Option (BitVec 32)
  /-- `C_BLKIDX` (R18). -/
  cBlkidx : Option (BitVec 8)
  /-- `X_BYTEOFF` (R19). -/
  xByteoff : Option (BitVec 16)
  /-- `X_BITOFF` (R19). -/
  xBitoff : Option (BitVec 16)
  /-- `X_WIDTH` (R19). -/
  xWidth : Option (BitVec 8)
  /-- `X_VAL` (R19). -/
  xVal : Option (BitVec 64)
  /-- `N_APPNONCE` (R20). -/
  nAppnonce : Option (BitVec 24)
  /-- `N_ID` (R20). -/
  nId : Option (BitVec 64)
  /-- `N_DEVNONCE` (R20). -/
  nDevnonce : Option (BitVec 16)
  /-- The `F_*` registers (R22). -/
  f : Fields
  /-- The `MIC_*` registers (R23). -/
  mic : MicRegs
  /-- The model's own: the host's actions yet to come, oldest first (R11, R45; log entry 1). -/
  inbox : List HostAction
  /-- The model's own: the results of the host's reads, newest first (R11, R246; log entry 2). -/
  outbox : List ReadResult
  /-- The model's own: how many free values have been drawn (R11; log entry 3). -/
  draws : Nat
  deriving DecidableEq, Repr

/-- A host action that is not an action the host has (R11; 93_implementation_defined.md ID10 "stuck").
No command raises any of these: a command's error is a code in `ERR` (R210). All are safe: the spec
gives such an action no step, and the machine stops. Log entry 12. -/
inductive Fault where
  /-- Raised by a `HostWrite` to a register that is not host-writable (R11, ID10). Safe. -/
  | notHostWritable
  /-- Raised by a `HostWrite` of a value wider than the register, or of the wrong shape (R11, ID10).
  Safe. -/
  | valueDoesNotFit
  /-- Raised by a `HostWriteKey` to a slot above 7 (R11, ID10). Safe. -/
  | noSuchSlot
  /-- Raised by a `HostWriteKey` of a string that is not sixteen bytes long (R11). Safe. -/
  | notAKey
  /-- Raised by a `HostLoad` of OBUF, which the host can only read (R11, R16). Safe. -/
  | notLoadable
  /-- Raised by a `HostLoad` of more than NBUF bytes (R11, R16, ID10). Safe. -/
  | loadTooLong
  /-- Raised by a `HostRead` of the port CMD: "reading it is not an action" (R25). Safe. -/
  | notReadable
  deriving DecidableEq, Repr

/-- No meaning for an instruction. Every instruction of the opcode table has a meaning, so no step
raises this; it is here for the host. Safe. -/
inductive Refusal where
  /-- The instruction of this mnemonic is not modelled. Raised by no arm of `exec`. Safe. -/
  | notModelled (mnemonic : String)
  deriving DecidableEq, Repr

/-- Every key slot invalid (R28). -/
def KeyFile.reset : KeyFile :=
  { appkey := none, nwkkey := none, nwkskey := none, appskey := none, fnwksintkey := none,
    snwksintkey := none, nwksenckey := none, userkey := none }

/-- Every `F_*` register `none` (R22, R28). -/
def Fields.empty : Fields :=
  { kind := .none, mtype := .none, mhdrRfu := .none, major := .none, joineui := .none,
    deveui := .none, devnonce := .none, appnonce := .none, netid := .none, devaddr := .none,
    dlsettings := .none, optneg := .none, rx1droffset := .none, rx2datarate := .none,
    rxdelay := .none, cflist := .none, dir := .none, fctrl := .none, adr := .none,
    adrackreq := .none, ack := .none, fpending := .none, classb := .none, foptslen := .none,
    fcnt16 := .none, fcnt32 := .none, foptsOff := .none, fport := .none, frmOff := .none,
    frmLen := .none, payEnc := .none }

/-- The three `MIC_*` registers `none` (R28). -/
def MicRegs.empty : MicRegs := { inframe := .none, derived := .none, ok := .none }

/-- The state after reset (R28, R240), with no host action yet to come. -/
def State.reset : State :=
  { ver := none, fcnthi := 0, err := 0, erracc := 0, keys := KeyFile.reset,
    ibuf := [], abuf := [], obuf := [], blk := none, oblk := none,
    cDir := none, cDevaddr := none, cFcnt32 := none, cBlkidx := none,
    xByteoff := none, xBitoff := none, xWidth := none, xVal := none,
    nAppnonce := none, nId := none, nDevnonce := none,
    f := Fields.empty, mic := MicRegs.empty, inbox := [], outbox := [], draws := 0 }

end Sys2Proof.Machine
end

