-- ==== Sys2Proof/Machine/Flags.lean ====
section
/-! DEFINITION. Every flag and sub-field computation: error codes and their sticky bits (R25, R210), the
MHDR, FCtrl and DLSettings bits (R59, R62, R64), direction (R66), the MIC verdict (R23). There are no
arithmetic condition codes (R24). -/

namespace Sys2Proof.Machine

/-- The number of an error code (R25, R210). -/
def ErrCode.code : ErrCode → BitVec 3
  | .rangeError => 1
  | .malformedFrame => 2
  | .invalidJoinPair => 3
  | .truncatedCommand => 4
  | .illegalCommand => 5
  | .illegalOperand => 6
  | .keyUnavailable => 7

/-- The bit of `ERRACC` that an error code sets: bit n for code n (R25). -/
def ErrCode.sticky (e : ErrCode) : BitVec 8 := 1#8 <<< e.code.toNat

/-- The eight values of MHDR.MType, in the source's order (R59). -/
inductive MType where
  | joinRequest
  | joinAccept
  | unconfirmedDataUp
  | unconfirmedDataDown
  | confirmedDataUp
  | confirmedDataDown
  | rfu
  | proprietary
  deriving DecidableEq, Repr

/-- The MType of a number (R59): the position in the enumeration, counted from 0. -/
def mtypeOf (v : BitVec 3) : MType :=
  if v = 0 then .joinRequest
  else if v = 1 then .joinAccept
  else if v = 2 then .unconfirmedDataUp
  else if v = 3 then .unconfirmedDataDown
  else if v = 4 then .confirmedDataUp
  else if v = 5 then .confirmedDataDown
  else if v = 6 then .rfu
  else .proprietary

/-- The fields of MHDR, byte 0 of a frame (R59). -/
structure Mhdr where
  mtype : BitVec 3
  rfu : BitVec 3
  major : BitVec 2
  deriving DecidableEq, Repr

/-- MHDR: bits 7:5 MType, bits 4:2 RFU, bits 1:0 Major (R59). -/
def mhdrOf (b : Byte) : Mhdr :=
  { mtype := b.extractLsb' 5 3, rfu := b.extractLsb' 2 3, major := b.extractLsb' 0 2 }

/-- FCtrl bit 7, ADR (R64). -/
def fctrlAdr (b : Byte) : BitVec 1 := b.extractLsb' 7 1

/-- FCtrl bit 6: ADRACKReq in an uplink, RFU and no value in a downlink (R64). -/
def fctrlAdrackreq (dir : BitVec 1) (b : Byte) : Option (BitVec 1) :=
  if dir = 0 then some (b.extractLsb' 6 1) else none

/-- FCtrl bit 5, ACK (R64). -/
def fctrlAck (b : Byte) : BitVec 1 := b.extractLsb' 5 1

/-- FCtrl bit 4 of a downlink, FPending; an uplink has none (R64). -/
def fctrlFpending (dir : BitVec 1) (b : Byte) : Option (BitVec 1) :=
  if dir = 0 then none else some (b.extractLsb' 4 1)

/-- FCtrl bit 4 of an uplink, ClassB; a downlink has none (R64). -/
def fctrlClassb (dir : BitVec 1) (b : Byte) : Option (BitVec 1) :=
  if dir = 0 then some (b.extractLsb' 4 1) else none

/-- FCtrl bits 3:0, FOptsLen (R64). -/
def fctrlFoptslen (b : Byte) : BitVec 4 := b.extractLsb' 0 4

/-- The three protocol versions (R2, R14). -/
inductive Version where
  | v10
  | v103
  | v11
  deriving DecidableEq, Repr

/-- DLSettings OptNeg: bit 7 in version 1.1, no value before (R62). -/
def dlOptneg (ver : Version) (b : Byte) : Option (BitVec 1) :=
  match ver with
  | .v11 => some (b.extractLsb' 7 1)
  | .v10 | .v103 => none

/-- DLSettings RX1DROffset: bits 7:4 in version 1.0.x, bits 6:4 zero-extended in 1.1 (R62). -/
def dlRx1droffset (ver : Version) (b : Byte) : BitVec 4 :=
  match ver with
  | .v11 => (b.extractLsb' 4 3).setWidth 4
  | .v10 | .v103 => b.extractLsb' 4 4

/-- DLSettings RX2DataRate: bits 3:0 (R62). -/
def dlRx2datarate (b : Byte) : BitVec 4 := b.extractLsb' 0 4

/-- `FCnt32 = FCNTHI * 65536 + FCnt16` (R65). -/
def fcnt32Of (fcnthi fcnt16 : BitVec 16) : BitVec 32 := fcnthi ++ fcnt16

/-- The verdict `MIC_OK`: it has a value only when both MICs have one, and is then 1 iff they are equal
(R23, R187, R200). -/
def micVerdict (inframe derived : Option (BitVec 32)) : Option (BitVec 1) :=
  match inframe, derived with
  | some a, some b => some (if a = b then 1 else 0)
  | _, _ => none

end Sys2Proof.Machine
end

