-- ==== Sys2Proof/Machine/Ops.lean ====
section
/-! DEFINITION. The named operations over buffers, key slots and result registers, how a command ends,
and the one operation that takes an error (R210, R216, R217, R223). -/

namespace Sys2Proof.Machine

/-- A string laid out from address a on. -/
def Memory.layout (a : Nat) : List Byte → Memory
  | [] => []
  | b :: bs => (a, b) :: Memory.layout (a + 1) bs

/-- The buffer that holds exactly a string: address 0 first, length register the string's length
(R11 `HostLoad`, R36 `MemWrite`). -/
def Memory.ofBytes (b : List Byte) : Memory := Memory.layout 0 b

/-- The content of a buffer, `slice(buf, 0, LEN)` (R36). -/
def Memory.bytes (m : Memory) : List Byte := m.map Prod.snd

/-- The length register of a buffer (R16). -/
def Memory.size (m : Memory) : Nat := m.length

/-- The byte at an address; an address at or above the length holds nothing (R16, R36). -/
def Memory.read (m : Memory) (a : Nat) : Option Byte := (m.find? (fun c => c.1 == a)).map Prod.snd

/-- The canonical form of a buffer: the addresses listed are 0 to length - 1 in rising order, at most
NBUF of them (R16). -/
def Memory.wf (m : Memory) : Bool :=
  m.map Prod.fst == List.range m.length && decide (m.length ≤ Config.nbuf)

/-- Key slot `K[s]`, `none` when `KV[s]` = 0 (R15). -/
def KeyFile.get (k : KeyFile) : Slot → Option Block
  | .appkey => k.appkey
  | .nwkkey => k.nwkkey
  | .nwkskey => k.nwkskey
  | .appskey => k.appskey
  | .fnwksintkey => k.fnwksintkey
  | .snwksintkey => k.snwksintkey
  | .nwksenckey => k.nwksenckey
  | .userkey => k.userkey

/-- `K[s] <- B; KV[s] <- 1` (R11, R15). -/
def KeyFile.set (k : KeyFile) (s : Slot) (b : Block) : KeyFile :=
  match s with
  | .appkey => { k with appkey := some b }
  | .nwkkey => { k with nwkkey := some b }
  | .nwkskey => { k with nwkskey := some b }
  | .appskey => { k with appskey := some b }
  | .fnwksintkey => { k with fnwksintkey := some b }
  | .snwksintkey => { k with snwksintkey := some b }
  | .nwksenckey => { k with nwksenckey := some b }
  | .userkey => { k with userkey := some b }

/-- The content of a buffer by its name. -/
def State.buffer (s : State) : Buf → Memory
  | .ibuf => s.ibuf
  | .abuf => s.abuf
  | .obuf => s.obuf

/-- Writes the key file. -/
def State.setKeys (s : State) (k : KeyFile) : State := { s with keys := k }

/-- Writes or clears `OBLK` (R17). -/
def State.setOblk (s : State) (v : Option Block) : State := { s with oblk := v }

/-- Writes or clears `X_VAL` (R19). -/
def State.setXVal (s : State) (v : Option (BitVec 64)) : State := { s with xVal := v }

/-- Writes the whole of `OBUF` and `OLEN` (R36). -/
def State.setObuf (s : State) (b : List Byte) : State := { s with obuf := Memory.ofBytes b }

/-- Writes every `F_*` register (R22). -/
def State.setFields (s : State) (f : Fields) : State := { s with f := f }

/-- Writes the three `MIC_*` registers (R23). -/
def State.setMic (s : State) (m : MicRegs) : State := { s with mic := m }

/-- Writes or clears `MIC_DERIVED` alone (R186). -/
def State.setMicDerived (s : State) (v : Option (BitVec 32)) : State :=
  { s with mic := { s.mic with derived := v } }

/-- A command ends without error: `ERR <- 0` (R210). -/
def State.succeed (s : State) : State := { s with err := 0 }

/-- A command ends with an error: `ERR <- code`, `ERRACC[code] <- 1` (R210, R216 item 1). This is the
whole of what taking an error does besides the clearing of the command's own results; nothing is saved
and control goes nowhere, so there is no return either (R223, R224). -/
def State.raise (s : State) (e : ErrCode) : State :=
  { s with err := e.code, erracc := s.erracc ||| e.sticky }

/-- A command word that selects no row: `ILLEGAL_COMMAND`, and nothing else changes (R53, R217). -/
def State.illegalCommand (s : State) : State := s.raise .illegalCommand

/-- Every item of the spec's state takes its reset value (R28, R202, R240); the host's own actions and
answers, which are not the block's state, stay (log entries 8 and 9). -/
def State.clear (s : State) : State :=
  { State.reset with inbox := s.inbox, outbox := s.outbox, draws := s.draws }

end Sys2Proof.Machine
end

