-- ==== Sys2Proof/Machine/Operands.lean ====
section
/-! DEFINITION. Every operand form of a command: operand registers, the version, key slots, the buffers,
and what an unusable operand gives (R13, R218, R219). -/

namespace Sys2Proof.Machine

/-- An operand register: valid flag 0 gives ILLEGAL_OPERAND (R13, R218). -/
def operand {α : Type} (r : Option α) : Except ErrCode α :=
  match r with
  | some v => .ok v
  | none => .error .illegalOperand

/-- A mandatory key slot: `KV[s]` = 0 gives KEY_UNAVAILABLE (R219). -/
def keyOperand (k : KeyFile) (s : Slot) : Except ErrCode Block :=
  match k.get s with
  | some v => .ok v
  | none => .error .keyUnavailable

/-- The version that a value of `VER` selects: 0 is 1.0, 1 is 1.0.3, 2 is 1.1, 3 is reserved (R14). -/
def versionOf (v : BitVec 2) : Option Version :=
  if v = 0 then some .v10 else if v = 1 then some .v103 else if v = 2 then some .v11 else none

/-- The operand `VER`: an invalid register or the reserved value 3 gives ILLEGAL_OPERAND (R14, R218). -/
def verOperand (s : State) : Except ErrCode Version := operand (s.ver.bind versionOf)

/-- The key slot of the root key of a version: the Join-Request MIC, the Join-Accept and its MIC use it
(R125, R185). -/
def rootSlot : Version → Slot
  | .v10 | .v103 => .appkey
  | .v11 => .nwkkey

/-- The root keys that key derivation needs (R153, R154, R219). -/
inductive RootKeys where
  | v10 (appkey : Block)
  | v11 (nwkkey appkey : Block)
  deriving DecidableEq, Repr

/-- Slot 0, and in version 1.1 also slot 1; a missing one gives KEY_UNAVAILABLE (R153, R154, R219). -/
def rootKeys (ver : Version) (k : KeyFile) : Except ErrCode RootKeys :=
  match ver with
  | .v10 | .v103 => do
    let a ← keyOperand k .appkey
    pure (.v10 a)
  | .v11 => do
    let a ← keyOperand k .appkey
    let n ← keyOperand k .nwkkey
    pure (.v11 n a)

/-- The root key that recovers the Join-Accept (R154, R125). -/
def RootKeys.joinKey : RootKeys → Block
  | .v10 a => a
  | .v11 n _ => n

/-- The cipher context that `KSTREAM` and `CRYPT` read (R18). -/
structure Context where
  dir : BitVec 1
  devaddr : BitVec 32
  fcnt32 : BitVec 32
  deriving DecidableEq, Repr

/-- `C_DIR`, `C_DEVADDR`, `C_FCNT32` (R18, R218). -/
def contextOperand (s : State) : Except ErrCode Context := do
  let d ← operand s.cDir
  let a ← operand s.cDevaddr
  let f ← operand s.cFcnt32
  pure ⟨d, a, f⟩

/-- The operands of `XBITS` (R19). -/
structure Span where
  byteOff : Nat
  bitOff : Nat
  width : Nat
  deriving DecidableEq, Repr

/-- `X_BYTEOFF`, `X_BITOFF`, `X_WIDTH`, as natural numbers, and the checks 1 to 3 of R112 in their
order. -/
def spanOperand (le : Bool) (s : State) : Except ErrCode Span := do
  let a ← operand s.xByteoff
  let b ← operand s.xBitoff
  let w ← operand s.xWidth
  if w.toNat > Config.xw then .error .illegalOperand
  else if le && (b.toNat != 0 || w.toNat % 8 != 0) then .error .illegalOperand
  else pure ⟨a.toNat, b.toNat, w.toNat⟩

/-- The operands `N_APPNONCE`, `N_ID`, `N_DEVNONCE` of `KDF` (R20). -/
structure Nonces where
  appnonce : BitVec 24
  id : BitVec 64
  devnonce : BitVec 16
  deriving DecidableEq, Repr

/-- `N_APPNONCE`, `N_ID`, `N_DEVNONCE` (R20, R218). -/
def nonceOperand (s : State) : Except ErrCode Nonces := do
  let a ← operand s.nAppnonce
  let i ← operand s.nId
  let d ← operand s.nDevnonce
  pure ⟨a, i, d⟩

end Sys2Proof.Machine
end

