-- ==== Sys2Proof/Machine/Frame.lean ====
section
/-! DEFINITION. Unit U3 part 2: the frame structure decoder (43_frame_parser.md, 30_encoding.md part B)
and the command PARSE. -/

namespace Sys2Proof.Machine

/-- The fields of a Join-Request (R60, R124). -/
structure JoinRequest where
  joineui : BitVec 64
  deveui : BitVec 64
  devnonce : BitVec 16
  deriving DecidableEq, Repr

/-- The fields of a recovered Join-Accept (R61, R127), with its plaintext, which is the output. -/
structure JoinAccept where
  appnonce : BitVec 24
  netid : BitVec 24
  devaddr : BitVec 32
  dlsettings : BitVec 8
  optneg : Option (BitVec 1)
  rx1droffset : BitVec 4
  rx2datarate : BitVec 4
  rxdelay : BitVec 8
  cflist : Option Block
  plain : List Byte
  deriving DecidableEq, Repr

/-- The fields of a data frame (R63 to R66, R129). -/
structure DataFrame where
  dir : BitVec 1
  devaddr : BitVec 32
  fctrl : BitVec 8
  adr : BitVec 1
  adrackreq : Option (BitVec 1)
  ack : BitVec 1
  fpending : Option (BitVec 1)
  classb : Option (BitVec 1)
  foptslen : BitVec 4
  fcnt16 : BitVec 16
  fcnt32 : BitVec 32
  fport : Option Byte
  frmOff : Nat
  frmLen : Nat
  deriving DecidableEq, Repr

/-- The body variants (R120): JOINREQ, JOINACC, JOINACC_ENC with the ciphertext, DATA, OPAQUE. -/
inductive Body where
  | joinRequest (j : JoinRequest)
  | joinAccept (j : JoinAccept)
  | joinAcceptEnc (cipher : List Byte)
  | data (d : DataFrame)
  | unstructured
  deriving DecidableEq, Repr

/-- The output of `ParseFrame` (R120): MALFORMED_FRAME with the MHDR fields when the frame has a byte 0,
or a frame. -/
inductive ParseResult where
  | malformed (m : Option Mhdr)
  | frame (m : Mhdr) (b : Body)
  deriving DecidableEq, Repr

/-- `JaPlain(key, E)` (R128): every block of the received ciphertext through the encrypt function. -/
def jaPlain (key : Block) (e : List Byte) : List Byte := ecbEnc key e

/-- The little-endian field of n bytes at offset a (R37, R111). -/
def wireField (b : List Byte) (a n : Nat) : Nat := intLe (slice b a n)

/-- The fields of a Join-Request (R60, R124). -/
def joinRequestOf (frame : List Byte) : JoinRequest :=
  { joineui := BitVec.ofNat 64 (wireField frame 1 8)
    deveui := BitVec.ofNat 64 (wireField frame 9 8)
    devnonce := BitVec.ofNat 16 (wireField frame 17 2) }

/-- The fields of a Join-Accept from its plaintext P (R61, R62, R68, R127). -/
def joinAcceptOf (ver : Version) (p : List Byte) : JoinAccept :=
  { appnonce := BitVec.ofNat 24 (wireField p 0 3)
    netid := BitVec.ofNat 24 (wireField p 3 3)
    devaddr := BitVec.ofNat 32 (wireField p 6 4)
    dlsettings := byteAt p 10
    optneg := dlOptneg ver (byteAt p 10)
    rx1droffset := dlRx1droffset ver (byteAt p 10)
    rx2datarate := dlRx2datarate (byteAt p 10)
    rxdelay := byteAt p 11
    cflist := if p.length = 32 then some (blockOf (slice p 12 16)) else none
    plain := p }

/-- The fields of a data frame (R63, R64, R65, R129). `r` is R of R63, the number of bytes between
FHDR and MIC: none, and there is no FPort; else FPort stands first. -/
def dataFrameOf (dir : BitVec 1) (fcnthi : BitVec 16) (frame : List Byte) : DataFrame :=
  let fctrl := byteAt frame 5
  let l := (fctrlFoptslen fctrl).toNat
  let r := frame.length - 12 - l
  let fcnt16 := BitVec.ofNat 16 (wireField frame 6 2)
  { dir := dir
    devaddr := BitVec.ofNat 32 (wireField frame 1 4)
    fctrl := fctrl
    adr := fctrlAdr fctrl
    adrackreq := fctrlAdrackreq dir fctrl
    ack := fctrlAck fctrl
    fpending := fctrlFpending dir fctrl
    classb := fctrlClassb dir fctrl
    foptslen := fctrlFoptslen fctrl
    fcnt16 := fcnt16
    fcnt32 := fcnt32Of fcnthi fcnt16
    fport := if r = 0 then none else some (byteAt frame (8 + l))
    frmOff := if r = 0 then 8 + l else 9 + l
    frmLen := if r = 0 then 0 else r - 1 }

/-- The Join-Request branch: exactly 23 bytes (R122, R124). -/
def parseJoinRequest (m : Mhdr) (frame : List Byte) : ParseResult :=
  if frame.length = 23 then .frame m (.joinRequest (joinRequestOf frame)) else .malformed (some m)

/-- The Join-Accept branch: 17 or 33 bytes; without the root key the ciphertext is passed through
(R122, R125 to R127). -/
def parseJoinAccept (m : Mhdr) (ver : Version) (root : Option Block) (frame : List Byte) :
    ParseResult :=
  if frame.length = 17 ∨ frame.length = 33 then
    match root with
    | some k => .frame m (.joinAccept (joinAcceptOf ver (jaPlain k (slice frame 1 (frame.length - 1)))))
    | none => .frame m (.joinAcceptEnc (slice frame 1 (frame.length - 1)))
  else .malformed (some m)

/-- The Data branch: at least 12 + FOptsLen bytes (R122, R129). -/
def parseData (m : Mhdr) (dir : BitVec 1) (fcnthi : BitVec 16) (frame : List Byte) : ParseResult :=
  if frame.length < 12 + (fctrlFoptslen (byteAt frame 5)).toNat then .malformed (some m)
  else .frame m (.data (dataFrameOf dir fcnthi frame))

/-- `ParseFrame(F, ver, fcnthi, rootkey)` (R120, R121): the length checks, then the dispatch on MType.
Direction is 0 for MType 2 and 4, 1 for 3 and 5 (R66). -/
def parseFrame (frame : List Byte) (ver : Version) (fcnthi : BitVec 16) (root : Option Block) :
    ParseResult :=
  let m := mhdrOf (byteAt frame 0)
  if frame.length = 0 then .malformed none
  else if frame.length < 12 then .malformed (some m)
  else
    match mtypeOf m.mtype with
    | .joinRequest => parseJoinRequest m frame
    | .joinAccept => parseJoinAccept m ver root frame
    | .unconfirmedDataUp => parseData m 0 fcnthi frame
    | .unconfirmedDataDown => parseData m 1 fcnthi frame
    | .confirmedDataUp => parseData m 0 fcnthi frame
    | .confirmedDataDown => parseData m 1 fcnthi frame
    | .rfu => .frame m .unstructured
    | .proprietary => .frame m .unstructured

/-- `ParseFrame` of the frame in `IBUF`, with the root key of the version if its slot is valid (R133). -/
def parseInput (ver : Version) (s : State) : ParseResult :=
  parseFrame s.ibuf.bytes ver s.fcnthi (s.keys.get (rootSlot ver))

/-- The code of a body variant in `F_KIND` (R22). -/
def Body.kind : Body → BitVec 3
  | .joinRequest _ => 1
  | .joinAccept _ => 2
  | .joinAcceptEnc _ => 3
  | .data _ => 4
  | .unstructured => 5

/-- The output bytes of a body variant (R126, R127, R133 column `OBUF`). -/
def Body.output : Body → List Byte
  | .joinRequest _ => []
  | .joinAccept j => j.plain
  | .joinAcceptEnc e => e
  | .data _ => []
  | .unstructured => []

/-- `F_KIND` and the MHDR three, every other `F_*` register `none` (R133). -/
def Fields.header (kind : BitVec 3) (m : Mhdr) : Fields :=
  { Fields.empty with
    kind := some kind, mtype := some m.mtype, mhdrRfu := some m.rfu, major := some m.major }

/-- The `F_*` registers after MALFORMED_FRAME: `F_KIND` 0, the MHDR three iff the frame has a byte 0
(R133 row "malformed"). -/
def Fields.malformed : Option Mhdr → Fields
  | some m => Fields.header 0 m
  | none => { Fields.empty with kind := some 0 }

/-- The `F_*` registers of a frame: those the variant produces get their values, all others `none`
(R133). -/
def Fields.ofFrame (m : Mhdr) (b : Body) : Fields :=
  let h := Fields.header b.kind m
  match b with
  | .joinRequest j =>
    { h with joineui := some j.joineui, deveui := some j.deveui, devnonce := some j.devnonce }
  | .joinAccept j =>
    { h with appnonce := some j.appnonce, netid := some j.netid, devaddr := some j.devaddr,
             dlsettings := some j.dlsettings, optneg := j.optneg,
             rx1droffset := some j.rx1droffset, rx2datarate := some j.rx2datarate,
             rxdelay := some j.rxdelay, cflist := j.cflist }
  | .joinAcceptEnc _ => h
  | .data d =>
    { h with dir := some d.dir, devaddr := some d.devaddr, fctrl := some d.fctrl, adr := some d.adr,
             adrackreq := d.adrackreq, ack := some d.ack, fpending := d.fpending,
             classb := d.classb, foptslen := some d.foptslen, fcnt16 := some d.fcnt16,
             fcnt32 := some d.fcnt32, foptsOff := some 8, fport := d.fport,
             frmOff := some (BitVec.ofNat 9 d.frmOff), frmLen := some (BitVec.ofNat 9 d.frmLen) }
  | .unstructured => h

/-- `PARSE` (R133): every `F_*` register and `OBUF` are written; an unusable `VER` gives
ILLEGAL_OPERAND and clears them all. -/
def execParse (s : State) : Host.Outcome State Fault Refusal :=
  match verOperand s with
  | .error e => .next (((s.setFields Fields.empty).setObuf []).raise e)
  | .ok ver =>
    match parseInput ver s with
    | .malformed m => .next (((s.setFields (Fields.malformed m)).setObuf []).raise .malformedFrame)
    | .frame m b => .next ((s.setFields (Fields.ofFrame m b)).setObuf b.output).succeed

end Sys2Proof.Machine
end

