-- ==== Sys2Proof/Machine/Kdf.lean ====
section
/-! DEFINITION. Unit U4, the key derivation engine (44_kdf.md), with the commands KDF and DERIVE. -/

namespace Sys2Proof.Machine

/-- `KdfBlock(tag, nonce, id, devnonce)` with an identifier of `idlen` bytes (R70). -/
def kdfBlock (tag : Byte) (nonce : BitVec 24) (idlen id : Nat) (devnonce : BitVec 16) : Block :=
  blockOf ([tag] ++ leBytes 3 nonce.toNat ++ leBytes idlen id ++ leBytes 2 devnonce.toNat ++
    zeros (16 - 6 - idlen))

/-- The session keys that a derivation makes (R151, R152). -/
inductive SessionKeys where
  | v10 (nwkskey appskey : Block)
  | v11 (fnwksintkey appskey snwksintkey nwksenckey : Block)
  deriving DecidableEq, Repr

/-- `Kdf10(appkey, appnonce, netid, devnonce)` (R151). -/
def kdf10 (appkey : Block) (appnonce netid : BitVec 24) (devnonce : BitVec 16) : SessionKeys :=
  .v10 (aesEnc appkey (kdfBlock 0x01 appnonce 3 netid.toNat devnonce))
    (aesEnc appkey (kdfBlock 0x02 appnonce 3 netid.toNat devnonce))

/-- `Kdf11(nwkkey, appkey, appnonce, joineui, devnonce)` (R152). -/
def kdf11 (nwkkey appkey : Block) (appnonce : BitVec 24) (joineui : BitVec 64)
    (devnonce : BitVec 16) : SessionKeys :=
  .v11 (aesEnc nwkkey (kdfBlock 0x01 appnonce 8 joineui.toNat devnonce))
    (aesEnc appkey (kdfBlock 0x02 appnonce 8 joineui.toNat devnonce))
    (aesEnc nwkkey (kdfBlock 0x03 appnonce 8 joineui.toNat devnonce))
    (aesEnc nwkkey (kdfBlock 0x04 appnonce 8 joineui.toNat devnonce))

/-- The function the version's root keys select: NetID is the identifier in version 1.0.x, JoinEUI in
1.1 (R153, R154). -/
def sessionKeys (root : RootKeys) (appnonce netid : BitVec 24) (joineui : BitVec 64)
    (devnonce : BitVec 16) : SessionKeys :=
  match root with
  | .v10 a => kdf10 a appnonce netid devnonce
  | .v11 n a => kdf11 n a appnonce joineui devnonce

/-- The slots a derivation writes: 2 and 3 in version 1.0.x, 3 to 6 in 1.1; the others keep what they
hold (R153, R154). -/
def KeyFile.install (k : KeyFile) : SessionKeys → KeyFile
  | .v10 nwk app => (k.set .nwkskey nwk).set .appskey app
  | .v11 fnwk app snwk enc =>
    (((k.set .fnwksintkey fnwk).set .appskey app).set .snwksintkey snwk).set .nwksenckey enc

/-- The result of `KDF` (R153): the operand registers before the keys. In version 1.0.x NetID is
`N_ID[23:0]`. -/
def kdfResult (s : State) : Except ErrCode SessionKeys := do
  let ver ← verOperand s
  let n ← nonceOperand s
  let root ← rootKeys ver s.keys
  pure (sessionKeys root n.appnonce (n.id.setWidth 24) n.id n.devnonce)

/-- `KDF`: session keys from the explicit nonces; on error no key slot changes (R153, R216). -/
def execKdf (s : State) : Host.Outcome State Fault Refusal :=
  match kdfResult s with
  | .ok k => .next (s.setKeys (s.keys.install k)).succeed
  | .error e => .next (s.raise e)

/-- Check 3 of R154: both frames have a byte 0, and its MType is JoinRequest in the one and JoinAccept
in the other. -/
def isJoinPair (jr ja : List Byte) : Bool :=
  jr.length != 0 && (mhdrOf (byteAt jr 0)).mtype == 0 && ja.length != 0 &&
    (mhdrOf (byteAt ja 0)).mtype == 1

/-- Check 4 of R154: the lengths of the two layouts. -/
def joinPairFits (jr ja : List Byte) : Bool :=
  jr.length == 23 && (ja.length == 17 || ja.length == 33)

/-- The session keys of a join pair (R154): AppNonce and NetID from the recovered Join-Accept, JoinEUI
and DevNonce from the Join-Request. -/
def pairKeys (root : RootKeys) (jr ja : List Byte) : SessionKeys :=
  let p := jaPlain root.joinKey (slice ja 1 (ja.length - 1))
  sessionKeys root (BitVec.ofNat 24 (wireField p 0 3)) (BitVec.ofNat 24 (wireField p 3 3))
    (BitVec.ofNat 64 (wireField jr 1 8)) (BitVec.ofNat 16 (wireField jr 17 2))

/-- The result of `DERIVE` (R154), its four checks in order. -/
def deriveResult (s : State) : Except ErrCode SessionKeys := do
  let ver ← verOperand s
  let root ← rootKeys ver s.keys
  if !isJoinPair s.abuf.bytes s.ibuf.bytes then .error .invalidJoinPair
  else if !joinPairFits s.abuf.bytes s.ibuf.bytes then .error .malformedFrame
  else pure (pairKeys root s.abuf.bytes s.ibuf.bytes)

/-- `DERIVE`: session keys from the join pair in `ABUF` and `IBUF`; on error no key slot changes (R154,
R216). -/
def execDerive (s : State) : Host.Outcome State Fault Refusal :=
  match deriveResult s with
  | .ok k => .next (s.setKeys (s.keys.install k)).succeed
  | .error e => .next (s.raise e)

end Sys2Proof.Machine
end

