-- ==== Sys2Proof/Machine/Bitfield.lean ====
section
/-! DEFINITION. Unit U3 part 1's functions: the bitfield extractor (42_bitfield.md R110, R111). -/

namespace Sys2Proof.Machine

/-- The bit at position p of a byte string: bit `7 - (p mod 8)` of byte `p div 8` (R40, R110). -/
def bitAt (b : List Byte) (p : Nat) : Bool := (byteAt b (p / 8)).getLsbD (7 - p % 8)

/-- The loop of R110: the bits from position p on, n of them, in increasing position order, after the
value v read so far. -/
def bitsFrom (b : List Byte) : Nat → Nat → Nat → Nat
  | 0, _, v => v
  | n + 1, p, v => bitsFrom b n (p + 1) (2 * v + (bitAt b p).toNat)

/-- `ExtractBits(B, byteOffset, bitOffset, bitWidth)` (R110); `none` is its RANGE_ERROR. -/
def extractBits (b : List Byte) (byteOff bitOff width : Nat) : Option Nat :=
  let start := 8 * byteOff + bitOff
  if start + width > 8 * b.length then none else some (bitsFrom b width start 0)

/-- `ExtractBitsLE(B, byteOffset, byteCount)` (R111); `none` is its RANGE_ERROR. -/
def extractBitsLe (b : List Byte) (byteOff byteCount : Nat) : Option Nat :=
  if byteOff + byteCount > b.length then none else some (intLe (slice b byteOff byteCount))

end Sys2Proof.Machine
end

