-- ==== Sys2Proof/Machine/Cmac.lean ====
section
/-! DEFINITION. Unit U2's function: AES-128-CMAC (41_cmac.md R100 to R103). -/

namespace Sys2Proof.Machine

/-- The 128-bit number of a block, byte 0 most significant (R101). -/
def blockNumber (b : Block) : BitVec 128 := BitVec.ofNat 128 (intBe (blockBytes b))

/-- The sixteen-byte big-endian string of a 128-bit number (R101). -/
def numberBlock (n : BitVec 128) : Block := blockOf (leBytes 16 n.toNat).reverse

/-- `Dbl(B)` (R101): shift left by one; if the bit shifted out is 1, exclusive-or 0x87. -/
def dbl (b : Block) : Block :=
  let n := blockNumber b
  numberBlock (if n.msb then (n <<< 1) ^^^ 0x87#128 else n <<< 1)

/-- `L` of R102. -/
def cmacL (key : Block) : Block := aesEnc key Block.zero

/-- `K1` of R102. -/
def cmacK1 (key : Block) : Block := dbl (cmacL key)

/-- `K2` of R102. -/
def cmacK2 (key : Block) : Block := dbl (cmacK1 key)

/-- The chaining of R103 over n blocks of the message: X is the value chained so far. -/
def cmacChain (key : Block) : Nat → Block → List Byte → Block
  | 0, x, _ => x
  | n + 1, x, m => cmacChain key n (aesEnc key (x.xor (blockOf m))) (m.drop 16)

/-- The final block of R103 from the final 0 to 16 bytes: a complete block takes K1, an incomplete
one is padded with a 1 bit and 0 bits and takes K2. -/
def cmacLast (key : Block) (last : List Byte) : Block :=
  if last.length = 16 then (blockOf last).xor (cmacK1 key)
  else (blockOf (last ++ [0x80] ++ zeros (15 - last.length))).xor (cmacK2 key)

/-- `n` of R103: the number of blocks of a message of m bytes, 1 for the empty message. -/
def cmacBlocks (m : Nat) : Nat := max 1 (blockCount m)

/-- `Cmac(key, M)` (R103). -/
def cmac (key : Block) (m : List Byte) : Block :=
  let n := cmacBlocks m.length
  aesEnc key ((cmacChain key (n - 1) Block.zero m).xor (cmacLast key (m.drop (16 * (n - 1)))))

end Sys2Proof.Machine
end

