-- ==== Sys2Proof/Machine/Primitives.lean ====
section
/-! DEFINITION. The commands of units U1, U2 and U3 part 1: AESENC (R89), CMAC (R104), XBITS (R112). -/

namespace Sys2Proof.Machine

/-- The result of `AESENC k=s` (R89): `BLK` before the key. -/
def aesencResult (ks : Slot) (s : State) : Except ErrCode Block := do
  let b ← operand s.blk
  let k ← keyOperand s.keys ks
  pure (aesEnc k b)

/-- `AESENC k=s`: `OBLK <- AesEnc(K[s], BLK)`; on error `OBLK <- none` (R89). -/
def execAesenc (ks : Slot) (s : State) : Host.Outcome State Fault Refusal :=
  match aesencResult ks s with
  | .ok b => .next (s.setOblk (some b)).succeed
  | .error e => .next ((s.setOblk none).raise e)

/-- The result of `CMAC k=s` (R104). -/
def cmacResult (ks : Slot) (s : State) : Except ErrCode Block := do
  let k ← keyOperand s.keys ks
  pure (cmac k s.ibuf.bytes)

/-- `CMAC k=s`: `OBLK <- Cmac(K[s], slice(IBUF, 0, ILEN))`; on error `OBLK <- none` (R104). -/
def execCmac (ks : Slot) (s : State) : Host.Outcome State Fault Refusal :=
  match cmacResult ks s with
  | .ok b => .next (s.setOblk (some b)).succeed
  | .error e => .next ((s.setOblk none).raise e)

/-- The value a span of `IBUF` holds, most significant bit first or, with `LE`, as little-endian bytes
(R112); a span that runs past the end gives RANGE_ERROR (R211). -/
def spanValue (le : Bool) (b : List Byte) (x : Span) : Except ErrCode Nat :=
  match (if le then extractBitsLe b x.byteOff (x.width / 8)
    else extractBits b x.byteOff x.bitOff x.width) with
  | some v => .ok v
  | none => .error .rangeError

/-- The result of `XBITS` and `XBITS.LE` (R112): the operand checks before the range check. -/
def xbitsResult (le : Bool) (s : State) : Except ErrCode (BitVec 64) := do
  let x ← spanOperand le s
  let v ← spanValue le s.ibuf.bytes x
  pure (BitVec.ofNat 64 v)

/-- `XBITS` and `XBITS.LE`: a span of `IBUF` into `X_VAL`; on error `X_VAL <- none` (R112). -/
def execXbits (le : Bool) (s : State) : Host.Outcome State Fault Refusal :=
  match xbitsResult le s with
  | .ok v => .next (s.setXVal (some v)).succeed
  | .error e => .next ((s.setXVal none).raise e)

end Sys2Proof.Machine
end

