-- ==== Sys2Proof/Machine/Cipher.lean ====
section
/-! DEFINITION. Units U5 and U6: the keystream generator and the payload XOR cipher
(45_payload_cipher.md), with the commands KSTREAM and CRYPT. -/

namespace Sys2Proof.Machine

/-- `ABlock(dir, devaddr, fcnt32, i)` (R71). -/
def aBlock (c : Context) (i : Byte) : Block :=
  blockOf ([0x01, 0x00, 0x00, 0x00, 0x00, c.dir.setWidth 8] ++ leBytes 4 c.devaddr.toNat ++
    leBytes 4 c.fcnt32.toNat ++ [0x00, i])

/-- `Keystream(key, dir, devaddr, fcnt32, i)` (R166). -/
def keystream (key : Block) (c : Context) (i : Byte) : Block := aesEnc key (aBlock c i)

/-- The loop of R167 over k blocks of data, the first of index i: the keystream block is cut to the
bytes there are. -/
def cryptBlocks (key : Block) (c : Context) : Nat → Nat → List Byte → List Byte
  | 0, _, _ => []
  | k + 1, i, d =>
    xorBytes (d.take 16) (blockBytes (keystream key c (BitVec.ofNat 8 i))) ++
      cryptBlocks key c k (i + 1) (d.drop 16)

/-- `Crypt(D, key, dir, devaddr, fcnt32)` (R167): the block index starts at 1. -/
def crypt (d : List Byte) (key : Block) (c : Context) : List Byte :=
  cryptBlocks key c (blockCount d.length) 1 d

/-- `PayloadKeySlot(ver, fport)` (R171). -/
def payloadKeySlot (ver : Version) (fport : Byte) : Slot :=
  if fport = 0 then
    match ver with
    | .v10 | .v103 => .nwkskey
    | .v11 => .nwksenckey
  else .appskey

/-- The result of `KSTREAM k=s` (R169): the four operand registers before the key. -/
def kstreamResult (ks : Slot) (s : State) : Except ErrCode Block := do
  let c ← contextOperand s
  let i ← operand s.cBlkidx
  let k ← keyOperand s.keys ks
  pure (keystream k c i)

/-- `KSTREAM k=s`: one keystream block into `OBLK`; on error `OBLK <- none` (R169). -/
def execKstream (ks : Slot) (s : State) : Host.Outcome State Fault Refusal :=
  match kstreamResult ks s with
  | .ok b => .next (s.setOblk (some b)).succeed
  | .error e => .next ((s.setOblk none).raise e)

/-- The result of `CRYPT k=s` (R170): the three operand registers before the key. -/
def cryptResult (ks : Slot) (s : State) : Except ErrCode (List Byte) := do
  let c ← contextOperand s
  let k ← keyOperand s.keys ks
  pure (crypt s.ibuf.bytes k c)

/-- `CRYPT k=s`: the whole of `IBUF` XOR keystream into `OBUF`; on error `OLEN <- 0` (R170). -/
def execCrypt (ks : Slot) (s : State) : Host.Outcome State Fault Refusal :=
  match cryptResult ks s with
  | .ok b => .next (s.setObuf b).succeed
  | .error e => .next ((s.setObuf []).raise e)

end Sys2Proof.Machine
end

