-- ==== Sys2Proof/Machine/Mic.lean ====
section
/-! DEFINITION. The MIC engine (46_mic.md), with the commands CMIC and VMIC. -/

namespace Sys2Proof.Machine

/-- `Mic(key, message)`: the first four bytes of the CMAC (R180, R39). -/
def mic (key : Block) (message : List Byte) : Quad := (cmac key message).c0

/-- The register form of four MIC bytes, `int_le` (R39, R180). -/
def quadNumber (q : Quad) : BitVec 32 := BitVec.ofNat 32 (intLe (quadBytes q))

/-- `MicJoinRequest(key, F)` (R181). -/
def micJoinRequest (key : Block) (frame : List Byte) : Quad := mic key (slice frame 0 19)

/-- `MicJoinAccept(key, mhdr, body)` (R182). -/
def micJoinAccept (key : Block) (mhdr : Byte) (body : List Byte) : Quad := mic key ([mhdr] ++ body)

/-- `B0Block(dir, devaddr, fcnt32, msglen)` (R72). -/
def b0Block (c : Context) (msglen : Nat) : Block :=
  blockOf ([0x49, 0x00, 0x00, 0x00, 0x00, c.dir.setWidth 8] ++ leBytes 4 c.devaddr.toNat ++
    leBytes 4 c.fcnt32.toNat ++ [0x00, BitVec.ofNat 8 msglen])

/-- `MicData10(key, dir, devaddr, fcnt32, msg)` (R183). -/
def micData10 (key : Block) (c : Context) (msg : List Byte) : Quad :=
  mic key (blockBytes (b0Block c msg.length) ++ msg)

/-- The cipher context of a data frame: its direction, DevAddr and FCnt32 (R65, R185, R200). -/
def DataFrame.context (d : DataFrame) : Context := ⟨d.dir, d.devaddr, d.fcnt32⟩

/-- A string without its last four bytes: what precedes the MIC (R182, R183). -/
def beforeMic (b : List Byte) : List Byte := slice b 0 (b.length - 4)

/-- The MIC of a data frame: `MicData10` under slot 2 in version 1.0.x, the open function `MIC11` under
slots 4 and 5 in 1.1 (R184, R185; log entry 5). -/
def dataMic (ver : Version) (k : KeyFile) (frame : List Byte) (d : DataFrame) : Except ErrCode Quad :=
  match ver with
  | .v10 | .v103 => do
    let nwk ← keyOperand k .nwkskey
    pure (micData10 nwk d.context (beforeMic frame))
  | .v11 => do
    let fnwk ← keyOperand k .fnwksintkey
    let snwk ← keyOperand k .snwksintkey
    pure (Config.mic11 fnwk snwk d.dir d.devaddr d.fcnt32 (beforeMic frame))

/-- `MicOfFrame` (R185): the MIC the version's key slots give, KEY_UNAVAILABLE when one of them is
invalid (R186), and no MIC at all for an OPAQUE frame. -/
def micOfFrame (ver : Version) (k : KeyFile) (frame : List Byte) (b : Body) :
    Except ErrCode (Option Quad) :=
  match b with
  | .joinRequest _ => do
    let key ← keyOperand k (rootSlot ver)
    pure (some (micJoinRequest key frame))
  | .joinAccept j => do
    let key ← keyOperand k (rootSlot ver)
    pure (some (micJoinAccept key (byteAt frame 0) (beforeMic j.plain)))
  | .joinAcceptEnc _ => .error .keyUnavailable
  | .data d => do
    let q ← dataMic ver k frame d
    pure (some q)
  | .unstructured => pure none

/-- The four MIC bytes a frame carries: the last of the frame, or of the recovered plaintext of a
Join-Accept; none when they cannot be seen or are not known to be a MIC (R67, R187, R200). -/
def micInFrame (frame : List Byte) (b : Body) : Option Quad :=
  match b with
  | .joinRequest _ => some (quadAt frame (frame.length - 4))
  | .joinAccept j => some (quadAt j.plain (j.plain.length - 4))
  | .joinAcceptEnc _ => none
  | .data _ => some (quadAt frame (frame.length - 4))
  | .unstructured => none

/-- The three MIC registers from the two MICs, with the verdict (R23). -/
def micRegs (inframe derived : Option Quad) : MicRegs :=
  { inframe := inframe.map quadNumber
    derived := derived.map quadNumber
    ok := micVerdict (inframe.map quadNumber) (derived.map quadNumber) }

/-- What `CMIC` and `VMIC` compute (R186, R187): the version, then the frame, then the keys. -/
def micResult (s : State) : Except ErrCode MicRegs := do
  let ver ← verOperand s
  match parseInput ver s with
  | .malformed _ => .error .malformedFrame
  | .frame _ b => do
    let d ← micOfFrame ver s.keys s.ibuf.bytes b
    pure (micRegs (micInFrame s.ibuf.bytes b) d)

/-- `CMIC` (R186): `MIC_DERIVED` alone is written; on error `MIC_DERIVED <- none`. -/
def execCmic (s : State) : Host.Outcome State Fault Refusal :=
  match micResult s with
  | .ok m => .next (s.setMicDerived m.derived).succeed
  | .error e => .next ((s.setMicDerived none).raise e)

/-- `VMIC` (R187): the three MIC registers are written, `ERR` is 0 whatever the verdict (R188); on
error all three are `none`. -/
def execVmic (s : State) : Host.Outcome State Fault Refusal :=
  match micResult s with
  | .ok m => .next (s.setMic m).succeed
  | .error e => .next ((s.setMic MicRegs.empty).raise e)

end Sys2Proof.Machine
end

