-- ==== Sys2Proof/Machine/System.lean ====
section
/-! DEFINITION. The composite command DECODE and the system commands NOP and CLR
(47_decode_system.md). -/

namespace Sys2Proof.Machine

/-- `NOP` (R201): `ERR <- 0` and nothing else. -/
def execNop (s : State) : Host.Outcome State Fault Refusal := .next s.succeed

/-- `CLR` (R202, R241): every item of state takes its reset value. -/
def execClr (s : State) : Host.Outcome State Fault Refusal := .next s.clear

/-- The derived MIC in `DECODE`: an absent key gives no MIC and no error (R200). -/
def derivedMic (ver : Version) (k : KeyFile) (frame : List Byte) (b : Body) : Option Quad :=
  match micOfFrame ver k frame b with
  | .ok q => q
  | .error _ => none

/-- What `DECODE` writes into `OBUF` and `F_PAY_ENC` for a data frame (R200): nothing and 0 for an
empty payload; the payload decrypted and 0 when the key of R171 is there; the payload as it stands
and 1 when it is not. -/
def payloadOf (ver : Version) (k : KeyFile) (frame : List Byte) (d : DataFrame) :
    List Byte × BitVec 1 :=
  match d.fport with
  | none => ([], 0)
  | some p =>
    if d.frmLen = 0 then ([], 0)
    else
      match k.get (payloadKeySlot ver p) with
      | some key => (crypt (slice frame d.frmOff d.frmLen) key d.context, 0)
      | none => (slice frame d.frmOff d.frmLen, 1)

/-- The `F_*` registers and the output bytes of `DECODE`: those of `PARSE`, but for a data frame's
payload (R200). -/
def decodedOf (ver : Version) (k : KeyFile) (frame : List Byte) (m : Mhdr) (b : Body) :
    Fields × List Byte :=
  match b with
  | .data d =>
    ({ Fields.ofFrame m b with payEnc := some (payloadOf ver k frame d).2 },
      (payloadOf ver k frame d).1)
  | .joinRequest _ => (Fields.ofFrame m b, b.output)
  | .joinAccept _ => (Fields.ofFrame m b, b.output)
  | .joinAcceptEnc _ => (Fields.ofFrame m b, b.output)
  | .unstructured => (Fields.ofFrame m b, b.output)

/-- `DECODE` (R200): the registers and `OBUF` as `PARSE` writes them, the three MIC registers, and the
payload; it never raises KEY_UNAVAILABLE, and the verdict changes nothing else (R188). -/
def execDecode (s : State) : Host.Outcome State Fault Refusal :=
  match verOperand s with
  | .error e =>
    .next ((((s.setFields Fields.empty).setObuf []).setMic MicRegs.empty).raise e)
  | .ok ver =>
    match parseInput ver s with
    | .malformed m =>
      .next ((((s.setFields (Fields.malformed m)).setObuf []).setMic MicRegs.empty).raise
        .malformedFrame)
    | .frame m b =>
      let out := decodedOf ver s.keys s.ibuf.bytes m b
      let regs := micRegs (micInFrame s.ibuf.bytes b) (derivedMic ver s.keys s.ibuf.bytes b)
      .next (((s.setFields out.1).setObuf out.2).setMic regs).succeed

end Sys2Proof.Machine
end

