-- ==== Sys2Proof/Machine/Dispatch.lean ====
section
/-! DEFINITION. The meaning of each command, one arm for each constructor of Instr. -/

namespace Sys2Proof.Machine

def exec (i : Instr) (s : State) : Host.Outcome State Fault Refusal :=
  match i with
  | .nop => Sys2Proof.Machine.execNop s
  | .clr => Sys2Proof.Machine.execClr s
  | .aesenc ks => Sys2Proof.Machine.execAesenc ks s
  | .cmac ks => Sys2Proof.Machine.execCmac ks s
  | .xbits le => Sys2Proof.Machine.execXbits le s
  | .parse => Sys2Proof.Machine.execParse s
  | .decode => Sys2Proof.Machine.execDecode s
  | .kdf => Sys2Proof.Machine.execKdf s
  | .derive => Sys2Proof.Machine.execDerive s
  | .kstream ks => Sys2Proof.Machine.execKstream ks s
  | .crypt ks => Sys2Proof.Machine.execCrypt ks s
  | .cmic => Sys2Proof.Machine.execCmic s
  | .vmic => Sys2Proof.Machine.execVmic s

end Sys2Proof.Machine
end

