-- ==== Sys2Proof/Decode.lean ====
section
/-! DEFINITION. Encodings: the command word (R50 to R53), decoder and encoder; the numbers, shapes and
host access of the register space (10_state.md R14 to R25). -/

namespace Sys2Proof

/-- The number of a key slot (R15). -/
def Slot.bits : Slot → BitVec 3
  | .appkey => 0
  | .nwkkey => 1
  | .nwkskey => 2
  | .appskey => 3
  | .fnwksintkey => 4
  | .snwksintkey => 5
  | .nwksenckey => 6
  | .userkey => 7

/-- The key slots in the order of their numbers (R15). -/
def Slot.all : List Slot :=
  [.appkey, .nwkkey, .nwkskey, .appskey, .fnwksintkey, .snwksintkey, .nwksenckey, .userkey]

/-- The key slot with a given number, if there is one: slots are 0 to 7 (R11, R15). -/
def Slot.ofNumber (n : Nat) : Option Slot := Slot.all[n]?

/-- `KS = w[10:8]`, zero-extended, as an index into the key file (R51). -/
def slotField (w : Word) : Slot := (Slot.ofNumber (w.extractLsb' 8 3).toNat).getD .appkey

/-- `LE = w[11]` (R51). -/
def leField (w : Word) : Bool := w.getLsbD 11

/-- The command decoder: w selects a row of R52 iff `(w AND mask) = match`; every word that selects no
row is illegal (R53), and the answer is then `none`. -/
def decode (w : Word) : Option Instr :=
  if w &&& 0xFFFFFFFF#32 = 0x00000000#32 then some .nop
  else if w &&& 0xFFFFFFFF#32 = 0x00000001#32 then some .clr
  else if w &&& 0xFFFFF8FF#32 = 0x00000010#32 then some (.aesenc (slotField w))
  else if w &&& 0xFFFFF8FF#32 = 0x00000011#32 then some (.cmac (slotField w))
  else if w &&& 0xFFFFF7FF#32 = 0x00000020#32 then some (.xbits (leField w))
  else if w &&& 0xFFFFFFFF#32 = 0x00000030#32 then some .parse
  else if w &&& 0xFFFFFFFF#32 = 0x00000031#32 then some .decode
  else if w &&& 0xFFFFFFFF#32 = 0x00000040#32 then some .kdf
  else if w &&& 0xFFFFFFFF#32 = 0x00000041#32 then some .derive
  else if w &&& 0xFFFFF8FF#32 = 0x00000050#32 then some (.kstream (slotField w))
  else if w &&& 0xFFFFF8FF#32 = 0x00000051#32 then some (.crypt (slotField w))
  else if w &&& 0xFFFFFFFF#32 = 0x00000060#32 then some .cmic
  else if w &&& 0xFFFFFFFF#32 = 0x00000061#32 then some .vmic
  else none

/-- A command word from its fields (R50): `ZERO` in bits 31:12, `LE` in bit 11, `KS` in bits 10:8,
`OP` in bits 7:0. -/
def commandWord (op : Byte) (ks : BitVec 3) (le : Bool) : Word :=
  (0#20 ++ BitVec.ofBool le ++ ks ++ op : BitVec 32)

/-- The command word of an instruction (R50, R52). -/
def encode : Instr → Word
  | .nop => commandWord 0x00 0 false
  | .clr => commandWord 0x01 0 false
  | .aesenc s => commandWord 0x10 s.bits false
  | .cmac s => commandWord 0x11 s.bits false
  | .xbits l => commandWord 0x20 0 l
  | .parse => commandWord 0x30 0 false
  | .decode => commandWord 0x31 0 false
  | .kdf => commandWord 0x40 0 false
  | .derive => commandWord 0x41 0 false
  | .kstream s => commandWord 0x50 s.bits false
  | .crypt s => commandWord 0x51 s.bits false
  | .cmic => commandWord 0x60 0 false
  | .vmic => commandWord 0x61 0 false

/-- The command word that the low `nbits` bits of `w` are, the bits above them zero, if the value is a
command word at all: a command is one word of 32 bits (R50). -/
def tableWord (nbits w : Nat) : Option Word :=
  if w % 2 ^ nbits < 2 ^ 32 then some (BitVec.ofNat 32 (w % 2 ^ nbits)) else none

/-- The instruction the decoder reads from an instruction of `nbits` bits with value `w`, numbered as
spec/opcode_table.json numbers them. A command word is one 32-bit operand of `HostIssue` (R50), not a
memory location (R47), so no byte order enters. -/
def decodeTableWord (nbits w : Nat) : Option Instr := (tableWord nbits w).bind decode

/-- The shape of a location: a register of a number of bits, a sixteen-byte register or key slot, a
byte buffer, or the port `CMD`, which stores nothing (R25). -/
inductive RegShape where
  | bits (width : Nat)
  | block
  | buffer
  | port
  deriving DecidableEq, Repr

/-- The shape and width of every location (R14 to R25, column "width"). -/
def RegName.shape : RegName → RegShape
  | .cmd => .port
  | .err => .bits 3
  | .erracc => .bits 8
  | .ver => .bits 2
  | .fcnthi => .bits 16
  | .blk => .block
  | .cDir => .bits 1
  | .cDevaddr => .bits 32
  | .cFcnt32 => .bits 32
  | .cBlkidx => .bits 8
  | .xByteoff => .bits 16
  | .xBitoff => .bits 16
  | .xWidth => .bits 8
  | .nAppnonce => .bits 24
  | .nId => .bits 64
  | .nDevnonce => .bits 16
  | .oblk => .block
  | .xVal => .bits 64
  | .fKind => .bits 3
  | .fMtype => .bits 3
  | .fMhdrRfu => .bits 3
  | .fMajor => .bits 2
  | .fJoineui => .bits 64
  | .fDeveui => .bits 64
  | .fDevnonce => .bits 16
  | .fAppnonce => .bits 24
  | .fNetid => .bits 24
  | .fDevaddr => .bits 32
  | .fDlsettings => .bits 8
  | .fOptneg => .bits 1
  | .fRx1droffset => .bits 4
  | .fRx2datarate => .bits 4
  | .fRxdelay => .bits 8
  | .fCflist => .block
  | .key _ => .block
  | .fDir => .bits 1
  | .fFctrl => .bits 8
  | .fAdr => .bits 1
  | .fAdrackreq => .bits 1
  | .fAck => .bits 1
  | .fFpending => .bits 1
  | .fClassb => .bits 1
  | .fFoptslen => .bits 4
  | .fFcnt16 => .bits 16
  | .fFcnt32 => .bits 32
  | .fFoptsOff => .bits 9
  | .fFport => .bits 8
  | .fFrmOff => .bits 9
  | .fFrmLen => .bits 9
  | .fPayEnc => .bits 1
  | .micInframe => .bits 32
  | .micDerived => .bits 32
  | .micOk => .bits 1
  | .buffer _ => .buffer
  | .length _ => .bits 9

/-- The host-writable registers, column "host" = RW (R14, R17 to R21). Key slots and buffers have
actions of their own (R11). -/
def RegName.hostWritable : RegName → Bool
  | .ver | .fcnthi | .blk | .cDir | .cDevaddr | .cFcnt32 | .cBlkidx => true
  | .xByteoff | .xBitoff | .xWidth | .nAppnonce | .nId | .nDevnonce => true
  | _ => false

/-- The register numbers, column "no." (R14 to R25, R15, R16). -/
def RegName.number : RegName → Nat
  | .cmd => 0x00
  | .err => 0x01
  | .erracc => 0x02
  | .ver => 0x03
  | .fcnthi => 0x04
  | .blk => 0x10
  | .cDir => 0x11
  | .cDevaddr => 0x12
  | .cFcnt32 => 0x13
  | .cBlkidx => 0x14
  | .xByteoff => 0x15
  | .xBitoff => 0x16
  | .xWidth => 0x17
  | .nAppnonce => 0x18
  | .nId => 0x19
  | .nDevnonce => 0x1A
  | .oblk => 0x20
  | .xVal => 0x21
  | .fKind => 0x30
  | .fMtype => 0x31
  | .fMhdrRfu => 0x32
  | .fMajor => 0x33
  | .fJoineui => 0x34
  | .fDeveui => 0x35
  | .fDevnonce => 0x36
  | .fAppnonce => 0x37
  | .fNetid => 0x38
  | .fDevaddr => 0x39
  | .fDlsettings => 0x3A
  | .fOptneg => 0x3B
  | .fRx1droffset => 0x3C
  | .fRx2datarate => 0x3D
  | .fRxdelay => 0x3E
  | .fCflist => 0x3F
  | .key s => 0x40 + s.bits.toNat
  | .fDir => 0x48
  | .fFctrl => 0x49
  | .fAdr => 0x4A
  | .fAdrackreq => 0x4B
  | .fAck => 0x4C
  | .fFpending => 0x4D
  | .fClassb => 0x4E
  | .fFoptslen => 0x4F
  | .fFcnt16 => 0x50
  | .fFcnt32 => 0x51
  | .fFoptsOff => 0x52
  | .fFport => 0x53
  | .fFrmOff => 0x54
  | .fFrmLen => 0x55
  | .fPayEnc => 0x56
  | .micInframe => 0x58
  | .micDerived => 0x59
  | .micOk => 0x5A
  | .buffer .ibuf => 0x80
  | .length .ibuf => 0x81
  | .buffer .abuf => 0x82
  | .length .abuf => 0x83
  | .buffer .obuf => 0x84
  | .length .obuf => 0x85

/-- Every location of the register space, in the order of the numbers. -/
def RegName.all : List RegName :=
  [.cmd, .err, .erracc, .ver, .fcnthi, .blk, .cDir, .cDevaddr, .cFcnt32, .cBlkidx, .xByteoff, .xBitoff,
   .xWidth, .nAppnonce, .nId, .nDevnonce, .oblk, .xVal, .fKind, .fMtype, .fMhdrRfu, .fMajor, .fJoineui,
   .fDeveui, .fDevnonce, .fAppnonce, .fNetid, .fDevaddr, .fDlsettings, .fOptneg, .fRx1droffset,
   .fRx2datarate, .fRxdelay, .fCflist] ++ Slot.all.map .key ++
  [.fDir, .fFctrl, .fAdr, .fAdrackreq, .fAck, .fFpending, .fClassb, .fFoptslen, .fFcnt16, .fFcnt32,
   .fFoptsOff, .fFport, .fFrmOff, .fFrmLen, .fPayEnc, .micInframe, .micDerived, .micOk, .buffer .ibuf,
   .length .ibuf, .buffer .abuf, .length .abuf, .buffer .obuf, .length .obuf]

/-- The location a register number identifies, if it identifies one (R35: numbers 0x00 to 0x85). -/
def RegName.ofNumber (n : Nat) : Option RegName := RegName.all.find? (fun r => r.number == n)

end Sys2Proof
end

