-- ==== Sys2Proof/Machine/HostPort.lean ====
section
/-! DEFINITION. The host's actions but for the issue of a command (R11), and reset (R240). An action
with out-of-range operands is not an action the host has, and stops by name (log entry 12). -/

namespace Sys2Proof.Machine

/-- A number as the value of a register of w bits, if it fits (R11 "v fits r's width"). -/
def bitsValue (v : RegValue) (w : Nat) : Option (BitVec w) :=
  match v with
  | .num n => if n < 2 ^ w then some (BitVec.ofNat w n) else none
  | .bytes _ => none

/-- A string as a sixteen-byte value, if it is one. -/
def blockValue (b : List Byte) : Option Block := if b.length = 16 then some (blockOf b) else none

/-- A string as the value of a sixteen-byte register (R17). -/
def blockRegValue (v : RegValue) : Option Block :=
  match v with
  | .num _ => none
  | .bytes b => blockValue b

/-- Store a value that fits; one that does not has no step (R11, ID10). -/
def store {α : Type} (v : Option α) (put : α → State) : Host.Outcome State Fault Refusal :=
  match v with
  | some x => .next (put x)
  | none => .fault .valueDoesNotFit

/-- `HostWrite(r, v)` (R11): `r <- v`, r's valid flag becomes 1, nothing else changes. `VER` = 3 is
stored like any other value (R14). -/
def hostWrite (r : RegName) (v : RegValue) (s : State) : Host.Outcome State Fault Refusal :=
  match r with
  | .ver => store (bitsValue v 2) (fun x => { s with ver := some x })
  | .fcnthi => store (bitsValue v 16) (fun x => { s with fcnthi := x })
  | .blk => store (blockRegValue v) (fun x => { s with blk := some x })
  | .cDir => store (bitsValue v 1) (fun x => { s with cDir := some x })
  | .cDevaddr => store (bitsValue v 32) (fun x => { s with cDevaddr := some x })
  | .cFcnt32 => store (bitsValue v 32) (fun x => { s with cFcnt32 := some x })
  | .cBlkidx => store (bitsValue v 8) (fun x => { s with cBlkidx := some x })
  | .xByteoff => store (bitsValue v 16) (fun x => { s with xByteoff := some x })
  | .xBitoff => store (bitsValue v 16) (fun x => { s with xBitoff := some x })
  | .xWidth => store (bitsValue v 8) (fun x => { s with xWidth := some x })
  | .nAppnonce => store (bitsValue v 24) (fun x => { s with nAppnonce := some x })
  | .nId => store (bitsValue v 64) (fun x => { s with nId := some x })
  | .nDevnonce => store (bitsValue v 16) (fun x => { s with nDevnonce := some x })
  | _ => .fault .notHostWritable

/-- `HostWriteKey(s, B)` (R11): `K[s] <- B; KV[s] <- 1`. -/
def hostWriteKey (n : Nat) (b : List Byte) (s : State) : Host.Outcome State Fault Refusal :=
  match Slot.ofNumber n, blockValue b with
  | some slot, some k => .next (s.setKeys (s.keys.set slot k))
  | some _, none => .fault .notAKey
  | none, _ => .fault .noSuchSlot

/-- `HostLoad(buf, B)` (R11): the content becomes B and the length register len(B). -/
def hostLoad (buf : Buf) (b : List Byte) (s : State) : Host.Outcome State Fault Refusal :=
  if b.length > Config.nbuf then .fault .loadTooLong
  else
    match buf with
    | .ibuf => .next { s with ibuf := Memory.ofBytes b }
    | .abuf => .next { s with abuf := Memory.ofBytes b }
    | .obuf => .fault .notLoadable

/-- A register of w bits as the host reads it. -/
def regBits {w : Nat} (v : Option (BitVec w)) : Option RegValue := v.map (fun x => .num x.toNat)

/-- A sixteen-byte register or key slot as the host reads it, byte 0 first (R15, R17). -/
def regBlock (v : Option Block) : Option RegValue := v.map (fun x => .bytes (blockBytes x))

/-- The content of a register or key slot, `none` when its valid flag is 0. `FCNTHI`, `ERR`, `ERRACC`
and the length registers are always valid (R13, R16). The port `CMD` and the buffers are not
registers. -/
def State.register (s : State) : RegName → Option RegValue
  | .cmd => none
  | .err => regBits (some s.err)
  | .erracc => regBits (some s.erracc)
  | .ver => regBits s.ver
  | .fcnthi => regBits (some s.fcnthi)
  | .blk => regBlock s.blk
  | .cDir => regBits s.cDir
  | .cDevaddr => regBits s.cDevaddr
  | .cFcnt32 => regBits s.cFcnt32
  | .cBlkidx => regBits s.cBlkidx
  | .xByteoff => regBits s.xByteoff
  | .xBitoff => regBits s.xBitoff
  | .xWidth => regBits s.xWidth
  | .nAppnonce => regBits s.nAppnonce
  | .nId => regBits s.nId
  | .nDevnonce => regBits s.nDevnonce
  | .oblk => regBlock s.oblk
  | .xVal => regBits s.xVal
  | .fKind => regBits s.f.kind
  | .fMtype => regBits s.f.mtype
  | .fMhdrRfu => regBits s.f.mhdrRfu
  | .fMajor => regBits s.f.major
  | .fJoineui => regBits s.f.joineui
  | .fDeveui => regBits s.f.deveui
  | .fDevnonce => regBits s.f.devnonce
  | .fAppnonce => regBits s.f.appnonce
  | .fNetid => regBits s.f.netid
  | .fDevaddr => regBits s.f.devaddr
  | .fDlsettings => regBits s.f.dlsettings
  | .fOptneg => regBits s.f.optneg
  | .fRx1droffset => regBits s.f.rx1droffset
  | .fRx2datarate => regBits s.f.rx2datarate
  | .fRxdelay => regBits s.f.rxdelay
  | .fCflist => regBlock s.f.cflist
  | .key slot => regBlock (s.keys.get slot)
  | .fDir => regBits s.f.dir
  | .fFctrl => regBits s.f.fctrl
  | .fAdr => regBits s.f.adr
  | .fAdrackreq => regBits s.f.adrackreq
  | .fAck => regBits s.f.ack
  | .fFpending => regBits s.f.fpending
  | .fClassb => regBits s.f.classb
  | .fFoptslen => regBits s.f.foptslen
  | .fFcnt16 => regBits s.f.fcnt16
  | .fFcnt32 => regBits s.f.fcnt32
  | .fFoptsOff => regBits s.f.foptsOff
  | .fFport => regBits s.f.fport
  | .fFrmOff => regBits s.f.frmOff
  | .fFrmLen => regBits s.f.frmLen
  | .fPayEnc => regBits s.f.payEnc
  | .micInframe => regBits s.mic.inframe
  | .micDerived => regBits s.mic.derived
  | .micOk => regBits s.mic.ok
  | .buffer _ => none
  | .length b => some (.num (s.buffer b).size)

/-- A draw of a value of a register's width (R11; log entry 3). -/
def freeValue (shape : RegShape) (draw : Nat) : RegValue :=
  match shape with
  | .bits w => .num ((Config.freeRead draw).toNat % 2 ^ w)
  | .block => .bytes (leBytes 16 (Config.freeRead draw).toNat)
  | .buffer => .bytes []
  | .port => .num 0

/-- The host is answered. -/
def State.answer (s : State) (r : ReadResult) : State := { s with outbox := r :: s.outbox }

/-- `HostRead(r)` (R11): the pair of valid flag and value, any value of the width when the flag is 0;
for a buffer its content. No state of the block changes. The port `CMD` cannot be read (R25). -/
def hostRead (r : RegName) (s : State) : Host.Outcome State Fault Refusal :=
  match r with
  | .cmd => .fault .notReadable
  | .buffer b => .next (s.answer (.buffer (s.buffer b).bytes))
  | _ =>
    match s.register r with
    | some v => .next (s.answer (.register true v))
    | none =>
      .next { s.answer (.register false (freeValue r.shape s.draws)) with draws := s.draws + 1 }

/-- Reset (R240): every item of state has the value of R28. -/
def hostReset (s : State) : Host.Outcome State Fault Refusal := .next s.clear

end Sys2Proof.Machine
end

