-- ==== Sys2Proof/Machine/Step.lean ====
section
/-! DEFINITION. One step: the host's next action takes effect completely (R11, R45, R245). -/

namespace Sys2Proof.Machine

/-- `HostIssue(w)` (R11): the engine decodes w and performs the whole command as one step; a word that
is no command is ILLEGAL_COMMAND (R53, R217). -/
def issueWord (w : Word) (s : State) : Host.Outcome State Fault Refusal :=
  match decode w with
  | some i => exec i s
  | none => .next s.illegalCommand

/-- One action of the host, or reset (R11, R240). -/
def performAction (a : HostAction) (s : State) : Host.Outcome State Fault Refusal :=
  match a with
  | .write r v => hostWrite r v s
  | .writeKey n b => hostWriteKey n b s
  | .load buf b => hostLoad buf b s
  | .read r => hostRead r s
  | .issue w => issueWord w s
  | .reset => hostReset s

/-- One step: the first of the host's remaining actions is taken and performed. With no action left
nothing happens: the host's actions are the only way state changes (R11, R246; log entry 1). -/
def step (s : State) : Host.Outcome State Fault Refusal :=
  match s.inbox with
  | [] => .next s
  | a :: rest => performAction a { s with inbox := rest }

/-- The host's next action becomes the issue of the command word that the low `nbits` bits of `w` are
(R11; log entry 1); if they are no 32-bit word, nothing changes. -/
def State.withFetchWord (s : State) (nbits w : Nat) : State :=
  match tableWord nbits w with
  | some word => { s with inbox := .issue word :: s.inbox }
  | none => s

end Sys2Proof.Machine
end

