-- ==== Sys2Proof/WellFormed.lean ====
section
/-! DEFINITION. Which host actions exist (R11, 93_implementation_defined.md ID10). A command has no
ill-formed term: its operand fields are a key slot, of which R15 has exactly the eight that the three
bits of `KS` name, and one flag; what a word must hold besides is the decoder's business (R53). -/

namespace Sys2Proof

/-- A value fits a location: a number below 2^width, or a string of sixteen bytes (R11 "v fits r's
width"). -/
def RegValue.fits (v : RegValue) (shape : RegShape) : Bool :=
  match shape, v with
  | .bits w, .num n => n < 2 ^ w
  | .block, .bytes b => b.length == 16
  | _, _ => false

/-- The action is one the host has (R11): a write goes to a host-writable register with a value that
fits; a key write names a slot 0 to 7 and sixteen bytes; a load goes to IBUF or ABUF with at most NBUF
bytes; any location but the port CMD can be read (R25); any word can be issued; reset (R240) is always
possible. -/
def HostAction.wellFormed : HostAction → Bool
  | .write r v => r.hostWritable && v.fits r.shape
  | .writeKey s b => s < 8 && b.length == 16
  | .load buf b => buf != .obuf && b.length ≤ Config.nbuf
  | .read r => r != .cmd
  | .issue _ => true
  | .reset => true

end Sys2Proof
end

