-- ==== Sys2Proof/Safety.lean ====
section
/-! DEFINITION. What counts as a safe state and a safe run: the invariant of the state, in four parts, and
the host actions that exist. -/

namespace Sys2Proof.Machine

/-- The three buffers are in canonical form, at most NBUF bytes each (R16). -/
def State.buffersCanonical (s : State) : Bool := s.ibuf.wf && s.abuf.wf && s.obuf.wf

/-- The status registers: bits 0 and 4 of `ERRACC` are 0, code 4 is never in `ERR`, and an error that
`ERR` shows has its bit set in `ERRACC` (R25, R210, R214). -/
def State.statusCoherent (s : State) : Bool :=
  !s.erracc.getLsbD 0 && !s.erracc.getLsbD 4 && s.err != 4 &&
    (s.err == 0 || s.erracc.getLsbD s.err.toNat)

/-- `F_KIND` holds no value or one of the six that R22 names. -/
def Fields.kindCoherent (f : Fields) : Bool :=
  match f.kind with
  | none => true
  | some k => k ≤ 5

/-- The MHDR three are valid together; for kinds 1 to 5 they are valid, for kind 0 they may be (R22 "all
but a parse of an empty buffer"), and without a kind none of them is. -/
def Fields.headerCoherent (f : Fields) : Bool :=
  f.mtype.isSome == f.mhdrRfu.isSome && f.mtype.isSome == f.major.isSome &&
    (if f.kind == none then f.mtype.isNone else f.mtype.isSome || f.kind == some 0)

/-- The registers that are valid for kind JOINREQ (R22). -/
def Fields.joinRequestCoherent (f : Fields) : Bool :=
  f.joineui.isSome == (f.kind == some 1) && f.deveui.isSome == (f.kind == some 1) &&
    f.devnonce.isSome == (f.kind == some 1)

/-- The registers that are valid for kind JOINACC (R22); DevAddr is shared with DATA. -/
def Fields.joinAcceptCoherent (f : Fields) : Bool :=
  f.appnonce.isSome == (f.kind == some 2) && f.netid.isSome == (f.kind == some 2) &&
    f.dlsettings.isSome == (f.kind == some 2) && f.rx1droffset.isSome == (f.kind == some 2) &&
    f.rx2datarate.isSome == (f.kind == some 2) && f.rxdelay.isSome == (f.kind == some 2) &&
    (f.optneg.isNone || f.kind == some 2) && (f.cflist.isNone || f.kind == some 2) &&
    f.devaddr.isSome == (f.kind == some 2 || f.kind == some 4)

/-- The registers that are valid for kind DATA, some of them for one direction only (R22, R64). -/
def Fields.dataCoherent (f : Fields) : Bool :=
  f.dir.isSome == (f.kind == some 4) && f.fctrl.isSome == (f.kind == some 4) &&
    f.adr.isSome == (f.kind == some 4) && f.ack.isSome == (f.kind == some 4) &&
    f.foptslen.isSome == (f.kind == some 4) && f.fcnt16.isSome == (f.kind == some 4) &&
    f.fcnt32.isSome == (f.kind == some 4) && f.foptsOff == (if f.kind == some 4 then some 8 else none) &&
    f.frmOff.isSome == (f.kind == some 4) && f.frmLen.isSome == (f.kind == some 4) &&
    f.adrackreq.isSome == (f.dir == some 0) && f.classb.isSome == (f.dir == some 0) &&
    f.fpending.isSome == (f.dir == some 1) && (f.fport.isNone || f.kind == some 4) &&
    (f.payEnc.isNone || f.kind == some 4)

/-- `F_KIND` is one of its values, and the `F_*` registers are valid as the column "valid for F_KIND" of
R22 says. -/
def Fields.coherent (f : Fields) : Bool :=
  f.kindCoherent && f.headerCoherent && f.joinRequestCoherent && f.joinAcceptCoherent && f.dataCoherent

/-- The invariant of the machine: canonical buffers, coherent status, coherent parsed fields. -/
def State.inv (s : State) : Bool := s.buffersCanonical && s.statusCoherent && s.f.coherent

/-- The verdict of R23: `MIC_OK` has a value only when both MICs have one, and is then 1 iff they are
equal. `CMIC` writes `MIC_DERIVED` alone (R186), so it is no invariant of every command (log entry 10). -/
def State.verdictCoherent (s : State) : Bool := s.mic.ok == micVerdict s.mic.inframe s.mic.derived

/-- Every action the host has yet to take is one it has (R11): a run of such actions is a safe run. -/
def State.actionsExist (s : State) : Bool := s.inbox.all HostAction.wellFormed

end Sys2Proof.Machine
end

