-- ==== Sys2Proof/Certificates/Slice0/Obligations.lean ====
section
/-! DEFINITION. The statements for the provers, and the words they are written in. -/

namespace Sys2Proof.Stated

open Sys2Proof Sys2Proof.Machine

/-- A row of R52: w selects the row iff `(w AND mask) = pattern`. -/
structure Row where
  pattern : Word
  mask : Word
  deriving DecidableEq, Repr

/-- The row of R52 of each command, columns `match` and `mask`. -/
def rowOf : Instr → Row
  | .nop => ⟨0x00000000, 0xFFFFFFFF⟩
  | .clr => ⟨0x00000001, 0xFFFFFFFF⟩
  | .aesenc _ => ⟨0x00000010, 0xFFFFF8FF⟩
  | .cmac _ => ⟨0x00000011, 0xFFFFF8FF⟩
  | .xbits _ => ⟨0x00000020, 0xFFFFF7FF⟩
  | .parse => ⟨0x00000030, 0xFFFFFFFF⟩
  | .decode => ⟨0x00000031, 0xFFFFFFFF⟩
  | .kdf => ⟨0x00000040, 0xFFFFFFFF⟩
  | .derive => ⟨0x00000041, 0xFFFFFFFF⟩
  | .kstream _ => ⟨0x00000050, 0xFFFFF8FF⟩
  | .crypt _ => ⟨0x00000051, 0xFFFFF8FF⟩
  | .cmic => ⟨0x00000060, 0xFFFFFFFF⟩
  | .vmic => ⟨0x00000061, 0xFFFFFFFF⟩

/-- The thirteen rows of R52. -/
def rows : List Row :=
  [rowOf .nop, rowOf .clr, rowOf (.aesenc .appkey), rowOf (.cmac .appkey), rowOf (.xbits false),
   rowOf .parse, rowOf .decode, rowOf .kdf, rowOf .derive, rowOf (.kstream .appkey),
   rowOf (.crypt .appkey), rowOf .cmic, rowOf .vmic]

/-- w selects the row. -/
def Row.selects (r : Row) (w : Word) : Prop := w &&& r.mask = r.pattern

/-- The operand fields of a command are those of the word: `KS = w[10:8]`, `LE = w[11]` (R51). -/
def operandsAreThoseOf (i : Instr) (w : Word) : Prop :=
  match i with
  | .aesenc ks | .cmac ks | .kstream ks | .crypt ks => ks.bits = w.extractLsb' 8 3
  | .xbits le => le = w.getLsbD 11
  | .nop | .clr | .parse | .decode | .kdf | .derive | .cmic | .vmic => True

/-- The `OP` values of R52. -/
def opcodes : List Byte :=
  [0x00, 0x01, 0x10, 0x11, 0x20, 0x30, 0x31, 0x40, 0x41, 0x50, 0x51, 0x60, 0x61]

/-- The `OP` values whose commands use `KS` (R52). -/
def keyedOpcodes : List Byte := [0x10, 0x11, 0x50, 0x51]

/-- The ways a word can be illegal, by its fields (R53). -/
def illegalFields (w : Word) : Prop :=
  w.extractLsb' 0 8 ∉ opcodes ∨ w.extractLsb' 12 20 ≠ 0 ∨
    (w.extractLsb' 8 3 ≠ 0 ∧ w.extractLsb' 0 8 ∉ keyedOpcodes) ∨
    (w.getLsbD 11 = true ∧ w.extractLsb' 0 8 ≠ 0x20)

/-- The state with error code e recorded (R216 item 1). -/
def failed (s : State) (e : BitVec 3) : State :=
  { s with err := e, erracc := s.erracc ||| (1#8 <<< e.toNat) }

/-- The state with `ERR` 0. -/
def ended (s : State) : State := { s with err := 0 }

/-- What a register holds after reset (R28): 0 in `FCNTHI`, `ERR`, `ERRACC` and the length registers,
no value in every other one. -/
def resetValue : RegName → Option RegValue
  | .fcnthi | .err | .erracc | .length _ => some (.num 0)
  | _ => none

/-- A value of `VER` that names a version (R14). -/
def usable (ver : Option (BitVec 2)) : Prop := ver = some 0 ∨ ver = some 1 ∨ ver = some 2

/-- Version 1.0.x (R14). -/
def is10 (ver : Option (BitVec 2)) : Prop := ver = some 0 ∨ ver = some 1

/-- The root key's slot (R125, R185). -/
def rootOf (ver : Option (BitVec 2)) : Slot := if ver = some 2 then .nwkkey else .appkey

/-- The frame in `IBUF` (R58). -/
def frame (s : State) : List Byte := s.ibuf.bytes

/-- MHDR bits 7:5 of a frame (R59). -/
def mtype (b : List Byte) : BitVec 3 := (byteAt b 0).extractLsb' 5 3

/-- FCtrl bits 3:0 of a frame (R64). -/
def foptslen (b : List Byte) : Nat := ((byteAt b 5).extractLsb' 0 4).toNat

/-- An uplink or downlink data frame's MType (R66). -/
def isData (b : List Byte) : Prop := mtype b = 2 ∨ mtype b = 3 ∨ mtype b = 4 ∨ mtype b = 5

/-- The conditions of R122. -/
def malformed (b : List Byte) : Prop :=
  b.length < 12 ∨ (mtype b = 0 ∧ b.length ≠ 23) ∨
    (mtype b = 1 ∧ b.length ≠ 17 ∧ b.length ≠ 33) ∨ (isData b ∧ b.length < 12 + foptslen b)

/-- The recovered plaintext of a Join-Accept: the AES encryption of each sixteen-byte block of bytes 1
on, one block in a frame of 17 bytes, two in a frame of 33 (R128). -/
def plaintext (key : Block) (b : List Byte) : List Byte :=
  if b.length = 33 then
    blockBytes (aesEnc key (blockOf (slice b 1 16))) ++
      blockBytes (aesEnc key (blockOf (slice b 17 16)))
  else blockBytes (aesEnc key (blockOf (slice b 1 16)))

/-- The little-endian field of n bytes at offset a of a string, in w bits (R37). -/
def field (w : Nat) (b : List Byte) (a n : Nat) : BitVec w := BitVec.ofNat w (intLe (slice b a n))

/-- `F_KIND` and the MHDR three of a frame, the other registers `none` (R133). -/
def header (kind : BitVec 3) (b : List Byte) : Fields :=
  { Fields.empty with
    kind := some kind, mtype := some ((byteAt b 0).extractLsb' 5 3),
    mhdrRfu := some ((byteAt b 0).extractLsb' 2 3), major := some ((byteAt b 0).extractLsb' 0 2) }

/-- The `F_*` registers after MALFORMED_FRAME (R133 row "malformed"). -/
def malformedFields (b : List Byte) : Fields :=
  if b.length = 0 then { Fields.empty with kind := some 0 } else header 0 b

/-- The direction of a data frame (R66). -/
def direction (b : List Byte) : BitVec 1 := if mtype b = 2 ∨ mtype b = 4 then 0 else 1

/-- The cipher context of a data frame (R129, R185). -/
def contextOf (fcnthi : BitVec 16) (b : List Byte) : Context :=
  ⟨direction b, field 32 b 1 4, fcnthi ++ field 16 b 6 2⟩

/-- The `F_*` registers of a data frame (R63 to R66, R129, R133). -/
def dataFields (fcnthi : BitVec 16) (b : List Byte) : Fields :=
  { header 4 b with
    dir := some (direction b)
    devaddr := some (field 32 b 1 4)
    fctrl := some (byteAt b 5)
    adr := some ((byteAt b 5).extractLsb' 7 1)
    adrackreq := if direction b = 0 then some ((byteAt b 5).extractLsb' 6 1) else none
    ack := some ((byteAt b 5).extractLsb' 5 1)
    fpending := if direction b = 1 then some ((byteAt b 5).extractLsb' 4 1) else none
    classb := if direction b = 0 then some ((byteAt b 5).extractLsb' 4 1) else none
    foptslen := some ((byteAt b 5).extractLsb' 0 4)
    fcnt16 := some (field 16 b 6 2)
    fcnt32 := some (BitVec.ofNat 32 (fcnthi.toNat * 65536 + intLe (slice b 6 2)))
    foptsOff := some 8
    fport := if b.length = 12 + foptslen b then none else some (byteAt b (8 + foptslen b))
    frmOff := some (BitVec.ofNat 9 (if b.length = 12 + foptslen b then 8 + foptslen b
      else 9 + foptslen b))
    frmLen := some (BitVec.ofNat 9 (b.length - 13 - foptslen b)) }

/-- The `F_*` registers of a recovered Join-Accept of plaintext p (R61, R62, R68, R127, R133). -/
def acceptFields (ver : Option (BitVec 2)) (b p : List Byte) : Fields :=
  { header 2 b with
    appnonce := some (field 24 p 0 3)
    netid := some (field 24 p 3 3)
    devaddr := some (field 32 p 6 4)
    dlsettings := some (byteAt p 10)
    optneg := if ver = some 2 then some ((byteAt p 10).extractLsb' 7 1) else none
    rx1droffset := some (if ver = some 2 then ((byteAt p 10).extractLsb' 4 3).setWidth 4
      else (byteAt p 10).extractLsb' 4 4)
    rx2datarate := some ((byteAt p 10).extractLsb' 0 4)
    rxdelay := some (byteAt p 11)
    cflist := if b.length = 33 then some (blockOf (slice p 12 16)) else none }

/-- The register form of four MIC bytes: byte 0 is the least significant (R39). -/
def micNumber (q : Quad) : BitVec 32 := q.r3 ++ q.r2 ++ q.r1 ++ q.r0

/-- The MIC registers when both MICs have a value (R23). -/
def micPair (inframe derived : Quad) : MicRegs :=
  { inframe := some (micNumber inframe), derived := some (micNumber derived),
    ok := some (if inframe = derived then 1 else 0) }

/-- `CMIC` and `VMIC` on a state deliver these two MICs (R186, R187). `CMIC` leaves `MIC_INFRAME` and
`MIC_OK` as they were (log entry 10). -/
def bothMics (s : State) (inframe derived : Quad) : Prop :=
  exec .vmic s = .next (ended { s with mic := micPair inframe derived }) ∧
    exec .cmic s = .next (ended { s with mic := { s.mic with derived := some (micNumber derived) } })

/-- `CMIC` and `VMIC` on a state end with an error (R186, R187, R216). `CMIC` leaves `MIC_INFRAME` and
`MIC_OK` as they were (log entry 10). -/
def neitherMic (s : State) (e : BitVec 3) : Prop :=
  exec .vmic s = .next (failed { s with mic := MicRegs.empty } e) ∧
    exec .cmic s = .next (failed { s with mic := { s.mic with derived := none } } e)

/-- Which commands write `OBLK` (R17). -/
def writesOblk : Instr → Bool
  | .clr | .aesenc _ | .cmac _ | .kstream _ => true
  | .nop | .xbits _ | .parse | .decode | .kdf | .derive | .crypt _ | .cmic | .vmic => false

/-- Which commands write `X_VAL` (R19). -/
def writesXVal : Instr → Bool
  | .clr | .xbits _ => true
  | .nop | .aesenc _ | .cmac _ | .parse | .decode | .kdf | .derive | .kstream _ | .crypt _ | .cmic
  | .vmic => false

/-- Which commands write the `F_*` registers (R22). -/
def writesFields : Instr → Bool
  | .clr | .parse | .decode => true
  | .nop | .aesenc _ | .cmac _ | .xbits _ | .kdf | .derive | .kstream _ | .crypt _ | .cmic
  | .vmic => false

/-- Which commands write `OBUF` (R16). -/
def writesObuf : Instr → Bool
  | .clr | .parse | .decode | .crypt _ => true
  | .nop | .aesenc _ | .cmac _ | .xbits _ | .kdf | .derive | .kstream _ | .cmic | .vmic => false

/-- Which commands write `MIC_INFRAME` and `MIC_OK` (R23). -/
def writesVerdict : Instr → Bool
  | .clr | .decode | .vmic => true
  | .nop | .aesenc _ | .cmac _ | .xbits _ | .parse | .kdf | .derive | .kstream _ | .crypt _
  | .cmic => false

/-- Which commands write `MIC_DERIVED` (R23). -/
def writesDerived : Instr → Bool
  | .clr | .decode | .cmic | .vmic => true
  | .nop | .aesenc _ | .cmac _ | .xbits _ | .parse | .kdf | .derive | .kstream _ | .crypt _ => false

/-- Which commands write key slots (R15). -/
def writesKeys : Instr → Bool
  | .clr | .kdf | .derive => true
  | .nop | .aesenc _ | .cmac _ | .xbits _ | .parse | .decode | .kstream _ | .crypt _ | .cmic
  | .vmic => false

/-- The codes each command can raise (R210 column "raised by"). -/
def mayRaise : Instr → List (BitVec 3)
  | .nop => []
  | .clr => []
  | .aesenc _ => [6, 7]
  | .cmac _ => [7]
  | .xbits _ => [1, 6]
  | .parse => [2, 6]
  | .decode => [2, 6]
  | .kdf => [6, 7]
  | .derive => [2, 3, 6, 7]
  | .kstream _ => [6, 7]
  | .crypt _ => [6, 7]
  | .cmic => [2, 6, 7]
  | .vmic => [2, 6, 7]

/-- What a command's error clears, before the code is recorded (R216 items 2 to 4): `e` is the code.
`F_KIND` is cleared by an unusable version (log entry 11), and `CMIC` leaves `MIC_INFRAME` and `MIC_OK`
as they were (log entry 10). -/
def cleared (i : Instr) (s : State) (e : BitVec 3) : State :=
  match i with
  | .nop | .clr | .kdf | .derive => s
  | .aesenc _ | .cmac _ | .kstream _ => { s with oblk := none }
  | .xbits _ => { s with xVal := none }
  | .crypt _ => { s with obuf := [] }
  | .parse => { s with f := if e = 2 then malformedFields (frame s) else Fields.empty, obuf := [] }
  | .decode =>
    { s with f := if e = 2 then malformedFields (frame s) else Fields.empty, obuf := [],
             mic := MicRegs.empty }
  | .cmic => { s with mic := { s.mic with derived := none } }
  | .vmic => { s with mic := MicRegs.empty }

/-- The operands of every command are the same in both states (R14, R16 to R21). -/
def sameOperands (s t : State) : Prop :=
  t.ver = s.ver ∧ t.fcnthi = s.fcnthi ∧ t.blk = s.blk ∧ t.cDir = s.cDir ∧ t.cDevaddr = s.cDevaddr ∧
    t.cFcnt32 = s.cFcnt32 ∧ t.cBlkidx = s.cBlkidx ∧ t.xByteoff = s.xByteoff ∧
    t.xBitoff = s.xBitoff ∧ t.xWidth = s.xWidth ∧ t.nAppnonce = s.nAppnonce ∧ t.nId = s.nId ∧
    t.nDevnonce = s.nDevnonce ∧ t.ibuf.size = s.ibuf.size ∧ t.abuf.size = s.abuf.size ∧
    (∀ a, t.ibuf.read a = s.ibuf.read a) ∧ (∀ a, t.abuf.read a = s.abuf.read a)

/-- s with the result registers, `OBUF` and the status registers of r. -/
def withResultsOf (s r : State) : State :=
  { s with err := r.err, erracc := r.erracc, obuf := r.obuf, oblk := r.oblk, xVal := r.xVal,
           f := r.f, mic := r.mic }

end Sys2Proof.Stated

open Sys2Proof Sys2Proof.Machine Sys2Proof.Stated

/-! ## Encodings -/

/-- R56: the example encodings, and some of the illegal words of V-D-ILL. -/
def Obligations.SampleWordsDecode : Prop :=
  decode 0x00000710 = some (.aesenc .userkey) ∧ decode 0x00000351 = some (.crypt .appskey) ∧
    decode 0x00000820 = some (.xbits true) ∧ decode 0x00000020 = some (.xbits false) ∧
    decode 0x00000031 = some .decode ∧ decode 0x00000910 = none ∧ decode 0x80000031 = none ∧
    decode 0x00000731 = none ∧ decode 0x00001000 = none

/-- R50 to R52: a word decodes to a command iff it is that command's word. Every command's word
decodes to it, and no word is dropped or read as another command. -/
def Obligations.DecodeAndEncodeAgree : Prop :=
  ∀ (w : Word) (i : Instr), decode w = some i ↔ encode i = w

/-- R51, R52: a word decodes to a command iff it selects that command's row and holds its operand
fields; it decodes to no command iff it selects no row; and "Rows are disjoint." -/
def Obligations.OpcodeRowsAreDisjoint : Prop :=
  (∀ (w : Word) (i : Instr), decode w = some i ↔ (rowOf i).selects w ∧ operandsAreThoseOf i w) ∧
    (∀ w : Word, decode w = none ↔ ∀ r ∈ rows, ¬ r.selects w) ∧
    ∀ (w : Word) (r q : Row), r ∈ rows → q ∈ rows → r.selects w → q.selects w → r = q

/-- R53, R217: which words select no row, by their fields; they and no others are no command; and what
issuing one does. -/
def Obligations.IllegalWordsChangeOnlyStatus : Prop :=
  (∀ w : Word, (∀ r ∈ rows, ¬ r.selects w) ↔ illegalFields w) ∧
    (∀ w : Word, decode w = none ↔ illegalFields w) ∧
    ∀ (s : State) (w : Word), (∀ r ∈ rows, ¬ r.selects w) →
      issueWord w s = .next { s with err := 5, erracc := s.erracc ||| 0x20 }

/-- R11, R45: when the host's next action issues a word, the step takes the action and issues the word;
when the word decodes to i, that is exec of i. That the host's actions wait in a list is the model's
choice (log entry 1). -/
def Obligations.StepRunsTheDecodedCommand : Prop :=
  ∀ (s : State) (w : Word) (rest : List HostAction), s.inbox = .issue w :: rest →
    step s = issueWord w { s with inbox := rest } ∧
      ∀ i : Instr, decode w = some i → step s = exec i { s with inbox := rest }

/-- R14 to R25, R35: every register number identifies its location. -/
def Obligations.RegisterNumbersIdentifyLocations : Prop :=
  ∀ r : RegName, RegName.ofNumber r.number = some r

/-! ## The commands, one by one -/

/-- R201. -/
def Obligations.NopClearsErrOnly : Prop :=
  encode .nop = 0x00000000 ∧ ∀ s : State, exec .nop s = .next { s with err := 0 }

/-- R202, R28: every register takes its reset value, every buffer is empty, and the state is the state
after reset, the model's own three fields apart (log entry 9). That CLR empties IBUF and ABUF, R202
against R16, is the model's reading (log entry 13). -/
def Obligations.ClrRestoresTheResetState : Prop :=
  encode .clr = 0x00000001 ∧ ∀ s : State, ∃ t, exec .clr s = .next t ∧
    (∀ r, t.register r = resetValue r) ∧ (∀ b a, (t.buffer b).read a = none) ∧
    { t with inbox := [], outbox := [], draws := 0 } = State.reset

/-- R89. -/
def Obligations.AesencEncryptsBlk : Prop :=
  ∀ (ks : Slot) (s : State), (encode (.aesenc ks)).toNat = 0x10 + 256 * ks.bits.toNat ∧
    (s.blk = none → exec (.aesenc ks) s = .next (failed { s with oblk := none } 6)) ∧
    (∀ b, s.blk = some b → s.keys.get ks = none →
      exec (.aesenc ks) s = .next (failed { s with oblk := none } 7)) ∧
    (∀ b k, s.blk = some b → s.keys.get ks = some k →
      exec (.aesenc ks) s = .next (ended { s with oblk := some (aesEnc k b) }))

/-- R104. -/
def Obligations.CmacAuthenticatesIbuf : Prop :=
  ∀ (ks : Slot) (s : State), (encode (.cmac ks)).toNat = 0x11 + 256 * ks.bits.toNat ∧
    (s.keys.get ks = none → exec (.cmac ks) s = .next (failed { s with oblk := none } 7)) ∧
    (∀ k, s.keys.get ks = some k →
      exec (.cmac ks) s = .next (ended { s with oblk := some (cmac k (frame s)) }))

/-- R112: XBITS and XBITS.LE, the four errors in order and the value. -/
def Obligations.XbitsExtractsASpan : Prop :=
  ∀ (le : Bool) (s : State), encode (.xbits le) = (if le then 0x820 else 0x020) ∧
    (s.xByteoff = none ∨ s.xBitoff = none ∨ s.xWidth = none →
      exec (.xbits le) s = .next (failed { s with xVal := none } 6)) ∧
    ∀ a b w, s.xByteoff = some a → s.xBitoff = some b → s.xWidth = some w →
      (w.toNat > 64 → exec (.xbits le) s = .next (failed { s with xVal := none } 6)) ∧
      (w.toNat ≤ 64 → le = true → (b ≠ 0 ∨ w.toNat % 8 ≠ 0) →
        exec (.xbits le) s = .next (failed { s with xVal := none } 6)) ∧
      (w.toNat ≤ 64 → (le = true → b = 0 ∧ w.toNat % 8 = 0) →
        8 * a.toNat + b.toNat + w.toNat > 8 * s.ibuf.size →
        exec (.xbits le) s = .next (failed { s with xVal := none } 1)) ∧
      (w.toNat ≤ 64 → (le = true → b = 0 ∧ w.toNat % 8 = 0) →
        8 * a.toNat + b.toNat + w.toNat ≤ 8 * s.ibuf.size →
        ∃ v, exec (.xbits le) s = .next (ended { s with xVal := some (BitVec.ofNat 64 v) }) ∧
          v < 2 ^ w.toNat ∧
          v = if le then intLe (slice (frame s) a.toNat (w.toNat / 8))
            else bitsFrom (frame s) w.toNat (8 * a.toNat + b.toNat) 0)

/-- R122: the length checks, complete; what PARSE leaves when one fails, and that it ends without
error when none does. The checks n = 0 and n < 12 for every MType are the spec's own reading: "Applying
the n >= 12 invariant to every MType, including 6 and 7, and the treatment of n = 0, are this spec's
reading of the invariant." -/
def Obligations.ParseRejectsExactlyMalformedFrames : Prop :=
  ∀ s : State, usable s.ver →
    (malformed (frame s) →
      exec .parse s =
        .next (failed { s with f := malformedFields (frame s), obuf := [] } 2)) ∧
    (¬ malformed (frame s) →
      ∃ t, exec .parse s = .next t ∧ t.err = 0 ∧ t.f.mtype = some (mtype (frame s)) ∧
        (∃ k, t.f.kind = some k ∧ k ≠ 0) ∧ t = { s with err := 0, f := t.f, obuf := t.obuf })

/-- R124: the Join-Request branch, the same for every version and with no key. -/
def Obligations.ParseSplitsJoinRequests : Prop :=
  ∀ s : State, usable s.ver → (frame s).length = 23 → mtype (frame s) = 0 →
    exec .parse s = .next (ended { s with
      obuf := []
      f := { header 1 (frame s) with
        joineui := some (field 64 (frame s) 1 8)
        deveui := some (field 64 (frame s) 9 8)
        devnonce := some (field 16 (frame s) 17 2) } })

/-- R125 to R128: the Join-Accept branch, recovered with the version's root key, or passed through
when its slot is invalid. -/
def Obligations.ParseRecoversJoinAccepts : Prop :=
  ∀ s : State, usable s.ver → (frame s).length = 17 ∨ (frame s).length = 33 →
    mtype (frame s) = 1 →
    (∀ k, s.keys.get (rootOf s.ver) = some k →
      exec .parse s = .next (ended { s with
        f := acceptFields s.ver (frame s) (plaintext k (frame s))
        obuf := Memory.ofBytes (plaintext k (frame s)) })) ∧
    (s.keys.get (rootOf s.ver) = none →
      exec .parse s = .next (ended { s with
        f := header 3 (frame s), obuf := Memory.ofBytes ((frame s).drop 1) }))

/-- R129: the Data branch, the same for every version and with no key. -/
def Obligations.ParseSplitsDataFrames : Prop :=
  ∀ s : State, usable s.ver → isData (frame s) → 12 + foptslen (frame s) ≤ (frame s).length →
    exec .parse s = .next (ended { s with f := dataFields s.fcnthi (frame s), obuf := [] })

/-- R132: frames of MType 6 and 7. -/
def Obligations.ParseReportsOpaqueFrames : Prop :=
  ∀ s : State, usable s.ver → mtype (frame s) = 6 ∨ mtype (frame s) = 7 →
    12 ≤ (frame s).length →
    exec .parse s = .next (ended { s with f := header 5 (frame s), obuf := [] })

/-- R153. -/
def Obligations.KdfDerivesSessionKeys : Prop :=
  encode .kdf = 0x40 ∧ ∀ s : State,
    (¬ usable s.ver ∨ s.nAppnonce = none ∨ s.nId = none ∨ s.nDevnonce = none →
      exec .kdf s = .next (failed s 6)) ∧
    ∀ a i d, s.nAppnonce = some a → s.nId = some i → s.nDevnonce = some d →
      (usable s.ver → (s.keys.appkey = none ∨ (s.ver = some 2 ∧ s.keys.nwkkey = none)) →
        exec .kdf s = .next (failed s 7)) ∧
      (∀ k, is10 s.ver → s.keys.appkey = some k →
        exec .kdf s = .next (ended { s with keys := { s.keys with
          nwkskey := some (aesEnc k (kdfBlock 0x01 a 3 (i.extractLsb' 0 24).toNat d))
          appskey := some (aesEnc k (kdfBlock 0x02 a 3 (i.extractLsb' 0 24).toNat d)) } })) ∧
      (∀ k n, s.ver = some 2 → s.keys.appkey = some k → s.keys.nwkkey = some n →
        exec .kdf s = .next (ended { s with keys := { s.keys with
          fnwksintkey := some (aesEnc n (kdfBlock 0x01 a 8 i.toNat d))
          appskey := some (aesEnc k (kdfBlock 0x02 a 8 i.toNat d))
          snwksintkey := some (aesEnc n (kdfBlock 0x03 a 8 i.toNat d))
          nwksenckey := some (aesEnc n (kdfBlock 0x04 a 8 i.toNat d)) } }))

/-- R154, the errors of DERIVE in their order; no key slot changes. -/
def Obligations.DeriveChecksInOrder : Prop :=
  ∀ s : State,
    (¬ usable s.ver → exec .derive s = .next (failed s 6)) ∧
    (usable s.ver → (s.keys.appkey = none ∨ (s.ver = some 2 ∧ s.keys.nwkkey = none)) →
      exec .derive s = .next (failed s 7)) ∧
    (usable s.ver → s.keys.appkey ≠ none → (s.ver = some 2 → s.keys.nwkkey ≠ none) →
      (s.abuf.bytes.length = 0 ∨ mtype s.abuf.bytes ≠ 0 ∨ s.ibuf.bytes.length = 0 ∨
        mtype s.ibuf.bytes ≠ 1 → exec .derive s = .next (failed s 3)) ∧
      (s.abuf.bytes.length ≠ 0 → mtype s.abuf.bytes = 0 → s.ibuf.bytes.length ≠ 0 →
        mtype s.ibuf.bytes = 1 → (s.abuf.bytes.length ≠ 23 ∨
          (s.ibuf.bytes.length ≠ 17 ∧ s.ibuf.bytes.length ≠ 33)) →
        exec .derive s = .next (failed s 2)))

/-- R154: DERIVE of a join pair gives exactly the keys that KDF gives from the fields that PARSE
reads off the two frames. -/
def Obligations.DeriveIsParseThenKdf : Prop :=
  ∀ s : State, usable s.ver → s.keys.appkey ≠ none → (s.ver = some 2 → s.keys.nwkkey ≠ none) →
    s.abuf.bytes.length = 23 → mtype s.abuf.bytes = 0 →
    s.ibuf.bytes.length = 17 ∨ s.ibuf.bytes.length = 33 → mtype s.ibuf.bytes = 1 →
    ∃ ja jr t a n e d, exec .parse s = .next ja ∧ exec .parse { s with ibuf := s.abuf } = .next jr ∧
      ja.f.appnonce = some a ∧ ja.f.netid = some n ∧ jr.f.joineui = some e ∧
      jr.f.devnonce = some d ∧
      exec .kdf { s with
        nAppnonce := some a
        nId := some (if s.ver = some 2 then e else n.setWidth 64)
        nDevnonce := some d } = .next t ∧ t.err = 0 ∧
      exec .derive s = .next (ended { s with keys := t.keys })

/-- R169. -/
def Obligations.KstreamMakesOneBlock : Prop :=
  ∀ (ks : Slot) (s : State), (encode (.kstream ks)).toNat = 0x50 + 256 * ks.bits.toNat ∧
    (s.cDir = none ∨ s.cDevaddr = none ∨ s.cFcnt32 = none ∨ s.cBlkidx = none →
      exec (.kstream ks) s = .next (failed { s with oblk := none } 6)) ∧
    ∀ d a f i, s.cDir = some d → s.cDevaddr = some a → s.cFcnt32 = some f → s.cBlkidx = some i →
      (s.keys.get ks = none →
        exec (.kstream ks) s = .next (failed { s with oblk := none } 7)) ∧
      (∀ k, s.keys.get ks = some k →
        exec (.kstream ks) s =
          .next (ended { s with oblk := some (aesEnc k (aBlock ⟨d, a, f⟩ i)) }))

/-- R170: the output is as long as `IBUF`, and each address of it holds the byte of `IBUF` there
XOR the keystream. -/
def Obligations.CryptXorsIbuf : Prop :=
  ∀ (ks : Slot) (s : State), (encode (.crypt ks)).toNat = 0x51 + 256 * ks.bits.toNat ∧
    (s.cDir = none ∨ s.cDevaddr = none ∨ s.cFcnt32 = none →
      exec (.crypt ks) s = .next (failed { s with obuf := [] } 6)) ∧
    ∀ d a f, s.cDir = some d → s.cDevaddr = some a → s.cFcnt32 = some f →
      (s.keys.get ks = none → exec (.crypt ks) s = .next (failed { s with obuf := [] } 7)) ∧
      (∀ k, s.keys.get ks = some k →
        ∃ t, exec (.crypt ks) s = .next t ∧ t = ended { s with obuf := t.obuf } ∧
          t.obuf.size = s.ibuf.size ∧
          ∀ j, t.obuf.read j = s.ibuf.bytes[j]?.map (fun x =>
            x ^^^ byteAt (blockBytes (aesEnc k (aBlock ⟨d, a, f⟩ (BitVec.ofNat 8 (j / 16 + 1)))))
              (j % 16)))

/-- R186, R187, R185 row JOINREQ, R181: the MIC of a Join-Request. That CMIC keeps `MIC_INFRAME` and
`MIC_OK`, R186 against R23, is the model's reading (log entry 10). -/
def Obligations.MicOfJoinRequests : Prop :=
  ∀ s : State, usable s.ver → (frame s).length = 23 → mtype (frame s) = 0 →
    (∀ k, s.keys.get (rootOf s.ver) = some k →
      bothMics s (quadAt (frame s) 19) (cmac k ((frame s).take 19)).c0) ∧
    (s.keys.get (rootOf s.ver) = none → neitherMic s 7)

/-- R186, R187, R185 row JOINACC, R182, R67, R128: the MIC of a Join-Accept is inside the encrypted
region. That CMIC keeps `MIC_INFRAME` and `MIC_OK`, R186 against R23, is the model's reading (log entry
10). -/
def Obligations.MicOfJoinAccepts : Prop :=
  ∀ s : State, usable s.ver → (frame s).length = 17 ∨ (frame s).length = 33 →
    mtype (frame s) = 1 →
    (∀ k p, s.keys.get (rootOf s.ver) = some k → p = plaintext k (frame s) →
      bothMics s (quadAt p (p.length - 4))
        (cmac k (byteAt (frame s) 0 :: p.take (p.length - 4))).c0) ∧
    (s.keys.get (rootOf s.ver) = none → neitherMic s 7)

/-- R186, R187, R185 row DATA, R183: the MIC of a data frame of version 1.0.x. That CMIC keeps
`MIC_INFRAME` and `MIC_OK`, R186 against R23, is the model's reading (log entry 10). -/
def Obligations.MicOfDataFrames : Prop :=
  ∀ s : State, is10 s.ver → isData (frame s) → 12 + foptslen (frame s) ≤ (frame s).length →
    (∀ k, s.keys.nwkskey = some k →
      bothMics s (quadAt (frame s) ((frame s).length - 4))
        (cmac k (blockBytes (b0Block (contextOf s.fcnthi (frame s)) ((frame s).length - 4)) ++
          (frame s).take ((frame s).length - 4))).c0) ∧
    (s.keys.nwkskey = none → neitherMic s 7)

/-- R184, R185: the MIC of a data frame of version 1.1 is the open function MIC11 of the two keys,
whatever that function is; both slots are needed (log entry 5). That CMIC keeps `MIC_INFRAME` and
`MIC_OK`, R186 against R23, is the model's reading (log entry 10). -/
def Obligations.MicOfDataFramesOfVersion11 : Prop :=
  ∀ s : State, s.ver = some 2 → isData (frame s) → 12 + foptslen (frame s) ≤ (frame s).length →
    (∀ k1 k2, s.keys.fnwksintkey = some k1 → s.keys.snwksintkey = some k2 →
      bothMics s (quadAt (frame s) ((frame s).length - 4))
        (Config.mic11 k1 k2 (direction (frame s)) (field 32 (frame s) 1 4)
          (s.fcnthi ++ field 16 (frame s) 6 2) ((frame s).take ((frame s).length - 4)))) ∧
    (s.keys.fnwksintkey = none ∨ s.keys.snwksintkey = none → neitherMic s 7)

/-- R186, R187: an OPAQUE frame has no MIC and no error; a missing version and a malformed frame are
errors, in that order and before any key. That CMIC keeps `MIC_INFRAME` and `MIC_OK`, R186 against R23,
is the model's reading (log entry 10). -/
def Obligations.MicOfOtherFrames : Prop :=
  ∀ s : State,
    (¬ usable s.ver → neitherMic s 6) ∧
    (usable s.ver → malformed (frame s) → neitherMic s 2) ∧
    (usable s.ver → mtype (frame s) = 6 ∨ mtype (frame s) = 7 → 12 ≤ (frame s).length →
      exec .vmic s = .next (ended { s with mic := MicRegs.empty }) ∧
      exec .cmic s = .next (ended { s with mic := { s.mic with derived := none } }))

/-- R188: whatever the two MICs are, VMIC that can compute them ends with ERR 0, and the verdict
tells whether they are equal. -/
def Obligations.MicMismatchIsNotAnError : Prop :=
  ∀ s t : State, exec .vmic s = .next t → t.mic.inframe ≠ none →
    t.err = 0 ∧ t.erracc = s.erracc ∧
      (t.mic.ok = some 1 ↔ t.mic.inframe = t.mic.derived) ∧ t.mic.ok ≠ none

/-- R200: on a frame that PARSE accepts, DECODE ends without error and does what PARSE does, but for
the MIC registers, and for `F_PAY_ENC` and `OBUF` of a data frame. -/
def Obligations.DecodeExtendsParse : Prop :=
  ∀ s : State, usable s.ver → ¬ malformed (frame s) →
    ∃ p t, exec .parse s = .next p ∧ exec .decode s = .next t ∧ t.err = 0 ∧
      t = { p with f := t.f, obuf := t.obuf, mic := t.mic } ∧
      { t.f with payEnc := none } = p.f ∧
      (t.f.kind = some 4 → t.f.payEnc ≠ none) ∧
      (t.f.kind ≠ some 4 → t.f = p.f ∧ t.obuf = p.obuf)

/-- R133, R200, R218: PARSE and DECODE without a usable version, and DECODE of a malformed frame. That
`F_KIND` is then `none` too, R133 against R22, is the model's reading (log entry 11). -/
def Obligations.FrameCommandsNeedAVersionAndALayout : Prop :=
  ∀ s : State,
    (¬ usable s.ver →
      exec .parse s = .next (failed { s with f := Fields.empty, obuf := [] } 6) ∧
      exec .decode s =
        .next (failed { s with f := Fields.empty, obuf := [], mic := MicRegs.empty } 6)) ∧
    (usable s.ver → malformed (frame s) → exec .decode s =
      .next (failed { s with
        f := malformedFields (frame s), obuf := [], mic := MicRegs.empty } 2))

/-- R200, R187: DECODE and VMIC agree on the MIC. Where VMIC succeeds DECODE reports the same three
registers; where VMIC lacks a key DECODE ends without error, derives no MIC and gives no verdict, and
still reports the frame's last four bytes, but for a Join-Accept, whose MIC it cannot see. -/
def Obligations.DecodeReportsTheMicOfVmic : Prop :=
  ∀ s u : State, exec .vmic s = .next u →
    ∃ t, exec .decode s = .next t ∧
      (u.err = 0 → t.err = 0 ∧ t.mic = u.mic) ∧
      (u.err = 7 → t.err = 0 ∧ t.mic.derived = none ∧ t.mic.ok = none ∧
        t.mic.inframe = if mtype (frame s) = 1 then none
          else some (micNumber (quadAt (frame s) ((frame s).length - 4)))) ∧
      (u.err = 2 ∨ u.err = 6 → t.err = u.err ∧ t.mic = MicRegs.empty)

/-- R200, R171: the payload of a data frame. -/
def Obligations.DecodeDecryptsThePayload : Prop :=
  ∀ s : State, usable s.ver → isData (frame s) → 12 + foptslen (frame s) ≤ (frame s).length →
    ∃ t, exec .decode s = .next t ∧ t.err = 0 ∧
      ((frame s).length ≤ 13 + foptslen (frame s) → t.obuf = [] ∧ t.f.payEnc = some 0) ∧
      (13 + foptslen (frame s) < (frame s).length → ∀ slot pay,
        slot = (if byteAt (frame s) (8 + foptslen (frame s)) ≠ 0 then Slot.appskey
          else if s.ver = some 2 then Slot.nwksenckey else Slot.nwkskey) →
        pay = slice (frame s) (9 + foptslen (frame s)) ((frame s).length - 13 - foptslen (frame s)) →
        t.f.frmOff = some (BitVec.ofNat 9 (9 + foptslen (frame s))) ∧
        t.f.frmLen = some (BitVec.ofNat 9 pay.length) ∧
        (∀ k, s.keys.get slot = some k →
          t.obuf = Memory.ofBytes (crypt pay k (contextOf s.fcnthi (frame s))) ∧
            t.f.payEnc = some 0) ∧
        (s.keys.get slot = none → t.obuf = Memory.ofBytes pay ∧ t.f.payEnc = some 1))

/-! ## What holds of every command -/

/-- R210, R42: every command completes, in every state, and records its outcome: 0 in `ERR`, or a code
whose bit is added to `ERRACC`. -/
def Obligations.EveryCommandCompletesAndRecordsItsOutcome : Prop :=
  ∀ (i : Instr) (s : State), ∃ t, exec i s = .next t ∧
    (i ≠ .clr → t.erracc = if t.err = 0 then s.erracc else s.erracc ||| (1#8 <<< t.err.toNat))

/-- R210, column "raised by", and R214: each command raises no code but its own, and none raises 4. -/
def Obligations.CommandsRaiseOnlyTheirCodes : Prop :=
  ∀ (i : Instr) (s t : State), exec i s = .next t → t.err = 0 ∨ t.err ∈ mayRaise i

/-- R216: a command that ends with an error clears its own results, changes no key slot and nothing
else, and records the code. Two readings are the model's: that `F_KIND` is cleared too where the version
is unusable, R133 and R216 against R22 (log entry 11), and that CMIC leaves `MIC_INFRAME` and `MIC_OK`,
R186 against R23 (log entry 10). -/
def Obligations.ErrorsClearExactlyTheCommandsResults : Prop :=
  ∀ (i : Instr) (s t : State), exec i s = .next t → t.err ≠ 0 →
    t = failed (cleared i s t.err) t.err

/-- R14, R16 to R21, R216 item 4: no command but CLR writes an operand register or a byte of `IBUF` or
`ABUF`. That CLR empties the two, R202 against R16, is the model's reading (log entry 13). -/
def Obligations.OperandsAndInputsAreNeverWritten : Prop :=
  ∀ (i : Instr) (s t : State), exec i s = .next t → i ≠ .clr → sameOperands s t

/-- R15 to R23, columns "written by": a result that a command does not own is unchanged, every byte of
`OBUF` among them. That CMIC leaves `MIC_INFRAME` and `MIC_OK`, R186 against R23, is the model's reading
(log entry 10). That no command, CLR too, touches the host's list, its answers and the draws is the
model's choice (log entries 1 to 3 and 9). -/
def Obligations.CommandsWriteOnlyWhatTheyOwn : Prop :=
  ∀ (i : Instr) (s t : State), exec i s = .next t →
    (writesOblk i = false → t.oblk = s.oblk) ∧ (writesXVal i = false → t.xVal = s.xVal) ∧
    (writesFields i = false → t.f = s.f) ∧
    (writesObuf i = false → t.obuf.size = s.obuf.size ∧ ∀ a, t.obuf.read a = s.obuf.read a) ∧
    (writesVerdict i = false → t.mic.inframe = s.mic.inframe ∧ t.mic.ok = s.mic.ok) ∧
    (writesDerived i = false → t.mic.derived = s.mic.derived) ∧
    (writesKeys i = false → t.keys = s.keys) ∧
    t.inbox = s.inbox ∧ t.outbox = s.outbox ∧ t.draws = s.draws

/-- R15, R43: no command but CLR writes slot 0, 1 or 7; version 1.0.x derivations leave 4, 5, 6 alone
and version 1.1 derivations leave 2 alone; and a slot once valid stays valid. -/
def Obligations.RootAndUserKeysAreNeverWritten : Prop :=
  ∀ (i : Instr) (s t : State), exec i s = .next t → i ≠ .clr →
    t.keys.appkey = s.keys.appkey ∧ t.keys.nwkkey = s.keys.nwkkey ∧
    t.keys.userkey = s.keys.userkey ∧ (s.ver = some 2 → t.keys.nwkskey = s.keys.nwkskey) ∧
    (s.ver ≠ some 2 → t.keys.fnwksintkey = s.keys.fnwksintkey ∧
      t.keys.snwksintkey = s.keys.snwksintkey ∧ t.keys.nwksenckey = s.keys.nwksenckey) ∧
    ∀ slot, s.keys.get slot ≠ none → t.keys.get slot ≠ none

/-- R203: issuing any command twice leaves the state that issuing it once leaves. -/
def Obligations.EveryCommandIsIdempotent : Prop :=
  ∀ (i : Instr) (s t : State), exec i s = .next t → exec i t = .next t

/-- R27: what a command delivers does not depend on the earlier contents of the result registers, of
`OBUF`, or of the status registers. -/
def Obligations.ResultsNeverFeedBack : Prop :=
  ∀ (i : Instr) (s r : State), ∃ t u, exec i s = .next t ∧ exec i (withResultsOf s r) = .next u ∧
    u.err = t.err ∧ u.keys = t.keys ∧ sameOperands t u ∧
    (writesOblk i = true → u.oblk = t.oblk) ∧ (writesXVal i = true → u.xVal = t.xVal) ∧
    (writesFields i = true → u.f = t.f) ∧ (writesObuf i = true → u.obuf = t.obuf) ∧
    (writesVerdict i = true → u.mic = t.mic) ∧
    (writesDerived i = true → u.mic.derived = t.mic.derived)

/-- R14, R2: versions 0 and 1 behave identically in every command, and the commands that do not read
`VER` do the same whatever it holds. -/
def Obligations.TheVersionActsOnlyWhereItIsRead : Prop :=
  (∀ (i : Instr) (s : State), ∃ t u, exec i { s with ver := some 0 } = .next t ∧
    exec i { s with ver := some 1 } = .next u ∧ { t with ver := none } = { u with ver := none }) ∧
    ∀ (i : Instr) (s t : State) (v : Option (BitVec 2)),
      (i = .nop ∨ (∃ k, i = .aesenc k) ∨ (∃ k, i = .cmac k) ∨ (∃ l, i = .xbits l) ∨
        (∃ k, i = .kstream k) ∨ (∃ k, i = .crypt k)) →
      exec i s = .next t → exec i { s with ver := v } = .next { t with ver := v }

/-! ## The host's actions and runs -/

/-- R11 `HostWrite`: the register holds the value and is valid, and nothing else changes. That the
host's actions wait in a list is the model's choice (log entry 1). -/
def Obligations.HostWriteStoresTheValue : Prop :=
  ∀ (s : State) (r : RegName) (v : RegValue) (rest : List HostAction),
    s.inbox = .write r v :: rest → r.hostWritable = true → v.fits r.shape = true →
    ∃ t, step s = .next t ∧ t.register r = some v ∧
      (∀ q, q ≠ r → t.register q = s.register q) ∧
      (∀ b a, (t.buffer b).read a = (s.buffer b).read a) ∧
      t.inbox = rest ∧ t.outbox = s.outbox ∧ t.draws = s.draws

/-- R11 `HostWriteKey` and `HostLoad`. That the host's actions wait in a list is the model's choice (log
entry 1). -/
def Obligations.HostLoadsKeysAndBuffers : Prop :=
  ∀ (s : State) (rest : List HostAction) (b : List Byte),
    (∀ slot, s.inbox = .writeKey slot.bits.toNat b :: rest → b.length = 16 →
      ∃ k, blockBytes k = b ∧
        step s = .next { s with inbox := rest, keys := s.keys.set slot k }) ∧
    (s.inbox = .load .ibuf b :: rest → b.length ≤ 256 →
      ∃ m : Memory, step s = .next { s with inbox := rest, ibuf := m } ∧ m.size = b.length ∧
        ∀ a, m.read a = b[a]?) ∧
    (s.inbox = .load .abuf b :: rest → b.length ≤ 256 →
      ∃ m : Memory, step s = .next { s with inbox := rest, abuf := m } ∧ m.size = b.length ∧
        ∀ a, m.read a = b[a]?)

/-- R11 `HostRead`: a valid register answers its value; an invalid one answers flag 0 and some value
of its width, which nothing else is known of (log entries 2 and 3); a buffer answers its bytes; no state
of the block changes. That the host's actions wait in a list is the model's choice (log entry 1). -/
def Obligations.HostReadAnswersWithoutSideEffect : Prop :=
  ∀ (s : State) (r : RegName) (rest : List HostAction), s.inbox = .read r :: rest →
    (∀ v, s.register r = some v →
      step s = .next { s with inbox := rest, outbox := .register true v :: s.outbox }) ∧
    (s.register r = none → r ≠ .cmd → (∀ b, r ≠ .buffer b) →
      ∃ v, v.fits r.shape = true ∧ step s = .next { s with
        inbox := rest, outbox := .register false v :: s.outbox, draws := s.draws + 1 }) ∧
    (∀ b, r = .buffer b → step s = .next { s with
      inbox := rest, outbox := .buffer (s.buffer b).bytes :: s.outbox })

/-- R240, R28: reset gives every item of the spec's state its reset value; that reset comes as an action
of the host's list and keeps the model's own three fields is the model's choice (log entries 1 and 8). -/
def Obligations.ResetEventRestoresTheResetState : Prop :=
  ∀ (s : State) (rest : List HostAction), s.inbox = .reset :: rest →
    step s = .next { State.reset with inbox := rest, outbox := s.outbox, draws := s.draws }

/-- R11, 93 ID10: a step stops exactly when the host's next action is not one it has. That the model
gives such an action a named stop, and that the actions wait in a list, is its choice (log entries 12
and 1). -/
def Obligations.StepStopsExactlyOnActionsThatDoNotExist : Prop :=
  ∀ (s : State) (a : HostAction) (rest : List HostAction), s.inbox = a :: rest →
    ((∃ f, step s = .fault f) ↔ a.wellFormed = false) ∧ ((∃ t, step s = .next t) ↔ a.wellFormed = true)

/-- R246, R210: a run of actions the host has never stops, however long. That the actions wait in a
list, and that a step with an empty list idles, is the model's choice (log entry 1). -/
def Obligations.RunsOfExistingActionsComplete : Prop :=
  ∀ (k : Nat) (s : State), s.actionsExist = true →
    ∃ t : State, Sys2Proof.core.run k s = .next t ∧ t.actionsExist = true ∧
      t.inbox = s.inbox.drop k

/-- R170, R168: to undo a CRYPT the host loads the bytes of `OBUF` into `IBUF` and issues the same
command. That the host's actions wait in a list is the model's choice (log entry 1). -/
def Obligations.CryptIsUndoneByCrypt : Prop :=
  ∀ (ks : Slot) (s t : State), s.ibuf.wf = true → exec (.crypt ks) s = .next t → t.err = 0 →
    ∃ u : State, Sys2Proof.core.run 2 { t with
        inbox := [.load .ibuf t.obuf.bytes, .issue (encode (.crypt ks))] } = .next u ∧
      u.err = 0 ∧ u.obuf = s.ibuf

/-! ## Invariants -/

/-- R28: the invariant of EveryStepKeepsInv holds after reset, and so does the verdict's coherence. The
form of the buffers is the model's choice (log entry 7). -/
def Obligations.ResetStateMeetsInv : Prop := State.reset.inv = true ∧ State.reset.verdictCoherent = true

/-- R16, R22, R25, R214: every step, of a command or of the host, keeps the buffers canonical, the
status registers coherent, `F_KIND` one of its values 0 to 5, and the `F_*` registers valid as that kind
says (none of them without a kind). The form of the buffers is the model's choice (log entry 7). -/
def Obligations.EveryStepKeepsInv : Prop :=
  ∀ s t : State, s.inv = true → step s = .next t → t.inv = true

/-- R23, R186: every command but CMIC keeps the verdict coherent with the two MICs; CMIC, which writes
`MIC_DERIVED` alone, can leave an old verdict that no longer fits (log entry 10). -/
def Obligations.OnlyCmicCanLeaveAStaleVerdict : Prop :=
  (∀ (i : Instr) (s t : State), i ≠ .cmic → s.verdictCoherent = true → exec i s = .next t →
    t.verdictCoherent = true) ∧
    ∃ s t : State, s.inv = true ∧ s.verdictCoherent = true ∧ exec .cmic s = .next t ∧
      t.verdictCoherent = false

/-! ## The functions -/

/-- R80: for a fixed key, AES-128 encryption is a bijection on blocks. -/
def Obligations.AesEncryptionIsABijection : Prop :=
  ∀ key : Block, Function.Bijective (aesEnc key)

/-- R83: the table is what the affine map of the inverse gives, and is a permutation. -/
def Obligations.SboxIsTheAffineInverse : Prop :=
  (∀ x : Byte, ∃ y : Byte, ((x = 0 ∧ y = 0) ∨ (x ≠ 0 ∧ gmul x y = 1)) ∧ sbox x = affine y) ∧
    Function.Injective sbox

/-- R101: doubling, bytewise. -/
def Obligations.DblShiftsBytewise : Prop :=
  ∀ b : Block,
    (∀ j, j < 15 → byteAt (blockBytes (dbl b)) j =
      (byteAt (blockBytes b) j <<< 1) ||| (byteAt (blockBytes b) (j + 1) >>> 7)) ∧
    byteAt (blockBytes (dbl b)) 15 =
      (byteAt (blockBytes b) 15 <<< 1) ^^^ (if b.c0.r0.getLsbD 7 then 0x87 else 0)

/-- R103: the CMAC of complete blocks and a final 1 to 16 bytes, and of the empty message. -/
def Obligations.CmacChainsBlocks : Prop :=
  (∀ (key : Block) (bs : List Block) (last : List Byte), 0 < last.length → last.length ≤ 16 →
    cmac key (bs.flatMap blockBytes ++ last) =
      aesEnc key ((bs.foldl (fun x b => aesEnc key (x.xor b)) Block.zero).xor
        (if last.length = 16 then (blockOf last).xor (dbl (aesEnc key Block.zero))
          else (blockOf (last ++ [0x80] ++ zeros (15 - last.length))).xor
            (dbl (dbl (aesEnc key Block.zero)))))) ∧
    ∀ key : Block, cmac key [] =
      aesEnc key ((blockOf ([0x80] ++ zeros 15)).xor (dbl (dbl (aesEnc key Block.zero))))

/-- R110: only the sum of the two offsets matters, and the value has as many bits as the span. -/
def Obligations.ExtractBitsDependsOnTheStart : Prop :=
  (∀ (b : List Byte) (a k o w : Nat), extractBits b a (8 * k + o) w = extractBits b (a + k) o w) ∧
    ∀ (b : List Byte) (a o w v : Nat), extractBits b a o w = some v → v < 2 ^ w

/-- R111: the little-endian form is the extraction from the reversed bytes. -/
def Obligations.LittleEndianExtractionReverses : Prop :=
  ∀ (b : List Byte) (a n : Nat),
    (a + n ≤ b.length → extractBitsLe b a n = some (intLe (slice b a n)) ∧
      extractBitsLe b a n = extractBits (slice b a n).reverse 0 0 (8 * n)) ∧
    (b.length < a + n → extractBitsLe b a n = none)

/-- R114, R40: a field at bits hi to lo of byte b is one call of the extractor. -/
def Obligations.BitFieldsAreExtractions : Prop :=
  ∀ (f : List Byte) (b hi lo : Nat), b < f.length → lo ≤ hi → hi ≤ 7 →
    extractBits f b (7 - hi) (hi - lo + 1) =
      some ((byteAt f b).extractLsb' lo (hi - lo + 1)).toNat

/-- 00_scope.md section 6: `int_le` is the inverse of `le`. -/
def Obligations.LittleEndianRoundTrips : Prop :=
  (∀ n v, v < 256 ^ n → intLe (leBytes n v) = v) ∧ ∀ b : List Byte, leBytes b.length (intLe b) = b

/-- R70, R71, R72: the cipher input blocks, byte by byte. -/
def Obligations.CipherInputBlocksAreLaidOut : Prop :=
  (∀ (tag : Byte) (n i : BitVec 24) (d : BitVec 16),
    blockBytes (kdfBlock tag n 3 i.toNat d) =
      [tag, n.extractLsb' 0 8, n.extractLsb' 8 8, n.extractLsb' 16 8,
       i.extractLsb' 0 8, i.extractLsb' 8 8, i.extractLsb' 16 8,
       d.extractLsb' 0 8, d.extractLsb' 8 8, 0, 0, 0, 0, 0, 0, 0]) ∧
  (∀ (tag : Byte) (n : BitVec 24) (e : BitVec 64) (d : BitVec 16),
    blockBytes (kdfBlock tag n 8 e.toNat d) =
      [tag, n.extractLsb' 0 8, n.extractLsb' 8 8, n.extractLsb' 16 8,
       e.extractLsb' 0 8, e.extractLsb' 8 8, e.extractLsb' 16 8, e.extractLsb' 24 8,
       e.extractLsb' 32 8, e.extractLsb' 40 8, e.extractLsb' 48 8, e.extractLsb' 56 8,
       d.extractLsb' 0 8, d.extractLsb' 8 8, 0, 0]) ∧
  (∀ (c : Context) (i : Byte),
    blockBytes (aBlock c i) =
      [1, 0, 0, 0, 0, c.dir.setWidth 8,
       c.devaddr.extractLsb' 0 8, c.devaddr.extractLsb' 8 8, c.devaddr.extractLsb' 16 8,
       c.devaddr.extractLsb' 24 8, c.fcnt32.extractLsb' 0 8, c.fcnt32.extractLsb' 8 8,
       c.fcnt32.extractLsb' 16 8, c.fcnt32.extractLsb' 24 8, 0, i]) ∧
  (∀ (c : Context) (l : Nat),
    blockBytes (b0Block c l) =
      [0x49, 0, 0, 0, 0, c.dir.setWidth 8,
       c.devaddr.extractLsb' 0 8, c.devaddr.extractLsb' 8 8, c.devaddr.extractLsb' 16 8,
       c.devaddr.extractLsb' 24 8, c.fcnt32.extractLsb' 0 8, c.fcnt32.extractLsb' 8 8,
       c.fcnt32.extractLsb' 16 8, c.fcnt32.extractLsb' 24 8, 0, BitVec.ofNat 8 (l % 256)])

/-- R168: the payload cipher is its own inverse, for every string and every context. -/
def Obligations.PayloadCipherIsAnInvolution : Prop :=
  ∀ (d : List Byte) (key : Block) (c : Context), crypt (crypt d key c) key c = d
end

