-- ==== Sys2Proof/Laws/Bytes.lean ====
section
/-! SUPPORT. The small lemmas of byte strings and blocks. -/

namespace Sys2Proof.Machine

@[simp] theorem quadBytes_length (q : Quad) : (quadBytes q).length = 4 := rfl

@[simp] theorem blockBytes_length (k : Block) : (blockBytes k).length = 16 := rfl

@[simp] theorem zeros_length (n : Nat) : (zeros n).length = n := by simp [zeros]

@[simp] theorem leBytes_length (n v : Nat) : (leBytes n v).length = n := by
  induction n generalizing v with
  | zero => rfl
  | succ n ih => simp [leBytes, ih]

@[simp] theorem xorBytes_length (a b : List Byte) :
    (xorBytes a b).length = min a.length b.length := by simp [xorBytes]

theorem slice_length (b : List Byte) (a n : Nat) : (slice b a n).length = min n (b.length - a) := by
  simp [slice]

/-- A block is the block of its bytes. -/
@[simp] theorem blockOf_blockBytes (k : Block) : blockOf (blockBytes k) = k := by
  cases k
  rfl

/-- Bytes past the first sixteen do not matter to a block. -/
theorem blockOf_append (k : Block) (l : List Byte) : blockOf (blockBytes k ++ l) = k := by
  cases k
  rfl

theorem quad_xor_self (a : Quad) : a.xor a = Quad.zero := by
  cases a
  simp [Quad.xor, Quad.zero]

theorem quad_xor_zero (a : Quad) : a.xor Quad.zero = a := by
  cases a
  simp [Quad.xor, Quad.zero]

theorem quad_xor_assoc (a b c : Quad) : (a.xor b).xor c = a.xor (b.xor c) := by
  simp [Quad.xor, BitVec.xor_assoc]

/-- Exclusive-or with the same block twice gives the block back. -/
theorem block_xor_cancel (a b : Block) : (a.xor b).xor b = a := by
  cases a
  cases b
  simp [Block.xor, quad_xor_assoc, quad_xor_self, quad_xor_zero]

/-- The integer of a string is below 256 to its length. -/
theorem intLe_lt (b : List Byte) : intLe b < 256 ^ b.length := by
  induction b with
  | nil => simp [intLe]
  | cons x xs ih =>
    have hx := x.isLt
    simp only [intLe, List.length_cons, Nat.pow_succ]
    omega

end Sys2Proof.Machine
end

