-- ==== Sys2Proof/Laws/Memory.lean ====
section
/-! SUPPORT. The buffers: what a buffer made of a string holds, and that every memory operation keeps the
canonical form. A buffer is only ever written whole (R36), so `Memory.ofBytes` is the one operation. -/

namespace Sys2Proof.Machine

@[simp] theorem Memory.layout_length (a : Nat) (b : List Byte) :
    (Memory.layout a b).length = b.length := by
  induction b generalizing a with
  | nil => rfl
  | cons x xs ih => simp [Memory.layout, ih]

theorem Memory.layout_bytes (a : Nat) (b : List Byte) :
    (Memory.layout a b).map Prod.snd = b := by
  induction b generalizing a with
  | nil => rfl
  | cons x xs ih => simp [Memory.layout, ih]

theorem Memory.layout_addresses (a : Nat) (b : List Byte) :
    (Memory.layout a b).map Prod.fst = List.range' a b.length := by
  induction b generalizing a with
  | nil => rfl
  | cons x xs ih => simp [Memory.layout, ih, List.range'_succ]

/-- A buffer made of a string holds that string. -/
@[simp] theorem Memory.bytes_ofBytes (b : List Byte) : (Memory.ofBytes b).bytes = b :=
  Memory.layout_bytes 0 b

@[simp] theorem Memory.size_ofBytes (b : List Byte) : (Memory.ofBytes b).size = b.length :=
  Memory.layout_length 0 b

@[simp] theorem Memory.bytes_length (m : Memory) : m.bytes.length = m.length := by
  simp [Memory.bytes]

@[simp] theorem Memory.ofBytes_nil : Memory.ofBytes [] = [] := rfl

/-- The empty buffer, which reset and CLR leave, is canonical. -/
theorem Memory.wf_nil : Memory.wf [] = true := by decide

/-- The one memory operation keeps the canonical form. -/
theorem Memory.wf_ofBytes (b : List Byte) (h : b.length ≤ Config.nbuf) :
    (Memory.ofBytes b).wf = true := by
  simp [Memory.wf, Memory.ofBytes, Memory.layout_addresses, List.range_eq_range', h]

/-- A canonical buffer holds at most NBUF bytes. -/
theorem Memory.wf_length {m : Memory} (h : m.wf = true) : m.length ≤ Config.nbuf := by
  simp [Memory.wf] at h
  exact h.2

theorem Memory.read_layout (b : List Byte) (a i : Nat) :
    ((Memory.layout a b).find? (fun c => c.1 == a + i)).map Prod.snd = b[i]? := by
  induction b generalizing a i with
  | nil => rfl
  | cons x xs ih =>
    cases i with
    | zero => simp [Memory.layout]
    | succ i =>
      have h : (a == a + (i + 1)) = false := by simp
      have e : a + (i + 1) = (a + 1) + i := by omega
      simp only [Memory.layout, List.find?_cons, h, List.getElem?_cons_succ]
      rw [e]
      exact ih (a + 1) i

/-- Reading one byte of a buffer made of a string: byte a of the string, nothing past its end. -/
@[simp] theorem Memory.read_ofBytes (b : List Byte) (a : Nat) : (Memory.ofBytes b).read a = b[a]? := by
  have h := Memory.read_layout b 0 a
  simpa [Memory.read, Memory.ofBytes] using h

/-- Equal canonical buffers are equal data: a canonical buffer is the buffer of its bytes. -/
theorem Memory.eq_ofBytes {m : Memory} (h : m.wf = true) : m = Memory.ofBytes m.bytes := by
  have h1 : m.map Prod.fst = List.range m.length := by
    simp [Memory.wf] at h
    exact h.1
  apply List.ext_getElem
  · simp [Memory.ofBytes, Memory.bytes]
  · intro i hi hj
    have hf : (m[i]).1 = i := by
      have := congrArg (fun l => l[i]?) h1
      simpa [hi] using this
    have hl : ((Memory.ofBytes m.bytes)[i]).1 = i := by
      have := congrArg (fun l => l[i]?) (Memory.layout_addresses 0 m.bytes)
      have hi' : i < m.bytes.length := by simpa using hi
      simp only [List.getElem?_map] at this
      rw [List.getElem?_eq_getElem (by simpa using hi), List.getElem?_range' hi'] at this
      simpa [Memory.ofBytes] using this
    have hs : ((Memory.ofBytes m.bytes)[i]).2 = (m[i]).2 := by
      have := congrArg (fun l => l[i]?) (Memory.layout_bytes 0 m.bytes)
      simp only [List.getElem?_map] at this
      rw [List.getElem?_eq_getElem (by simpa using hi)] at this
      simpa [Memory.ofBytes, Memory.bytes, hi] using this
    exact Prod.ext (hf.trans hl.symm) hs.symm

end Sys2Proof.Machine
end

