-- ==== Sys2Proof/Laws/Operands.lean ====
section
/-! SUPPORT. What each operand form can answer, once for each. -/

namespace Sys2Proof.Machine

@[simp] theorem operand_some {α : Type} (v : α) : operand (some v) = .ok v := rfl

@[simp] theorem operand_none {α : Type} : operand (none : Option α) = .error .illegalOperand := rfl

/-- An operand register answers its value when valid and ILLEGAL_OPERAND when not. -/
theorem operand_cases {α : Type} (r : Option α) :
    (∃ v, r = some v ∧ operand r = .ok v) ∨ (r = none ∧ operand r = .error .illegalOperand) := by
  cases r <;> simp

/-- A mandatory key answers its value when valid and KEY_UNAVAILABLE when not. -/
theorem keyOperand_cases (k : KeyFile) (s : Slot) :
    (∃ v, k.get s = some v ∧ keyOperand k s = .ok v) ∨
      (k.get s = none ∧ keyOperand k s = .error .keyUnavailable) := by
  unfold keyOperand
  cases h : k.get s <;> simp

theorem keyOperand_of_some {k : KeyFile} {s : Slot} {v : Block} (h : k.get s = some v) :
    keyOperand k s = .ok v := by simp [keyOperand, h]

theorem keyOperand_of_none {k : KeyFile} {s : Slot} (h : k.get s = none) :
    keyOperand k s = .error .keyUnavailable := by simp [keyOperand, h]

/-- The only error of the version operand is ILLEGAL_OPERAND. -/
theorem verOperand_error {s : State} {e : ErrCode} (h : verOperand s = .error e) :
    e = .illegalOperand := by
  rcases operand_cases (s.ver.bind versionOf) with ⟨v, _, hv⟩ | ⟨_, hv⟩
  · simp [verOperand, hv] at h
  · simp [verOperand, hv] at h
    exact h.symm

/-- The only error of the root keys is KEY_UNAVAILABLE. -/
theorem rootKeys_error {ver : Version} {k : KeyFile} {e : ErrCode} (h : rootKeys ver k = .error e) :
    e = .keyUnavailable := by
  cases ver <;>
    rcases keyOperand_cases k .appkey with ⟨a, _, ha⟩ | ⟨_, ha⟩ <;>
    rcases keyOperand_cases k .nwkkey with ⟨n, _, hn⟩ | ⟨_, hn⟩ <;>
    simp_all [rootKeys, bind, Except.bind, pure, Except.pure]

/-- Reading a key slot after writing one. -/
theorem KeyFile.get_set (k : KeyFile) (s t : Slot) (b : Block) :
    (k.set s b).get t = if t = s then some b else k.get t := by
  cases s <;> cases t <;> rfl

@[simp] theorem KeyFile.get_set_self (k : KeyFile) (s : Slot) (b : Block) :
    (k.set s b).get s = some b := by simp [KeyFile.get_set]

theorem KeyFile.get_set_other (k : KeyFile) {s t : Slot} (b : Block) (h : t ≠ s) :
    (k.set s b).get t = k.get t := by simp [KeyFile.get_set, h]

end Sys2Proof.Machine
end

