-- ==== Sys2Proof/Laws/State.lean ====
section
/-! SUPPORT. One lemma for each field of State after each named update, each true by unfolding. -/

namespace Sys2Proof.Machine

variable (s : State)

@[simp] theorem State.setKeys_ver (k : KeyFile) : (s.setKeys k).ver = s.ver := rfl
@[simp] theorem State.setKeys_fcnthi (k : KeyFile) : (s.setKeys k).fcnthi = s.fcnthi := rfl
@[simp] theorem State.setKeys_err (k : KeyFile) : (s.setKeys k).err = s.err := rfl
@[simp] theorem State.setKeys_erracc (k : KeyFile) : (s.setKeys k).erracc = s.erracc := rfl
@[simp] theorem State.setKeys_keys (k : KeyFile) : (s.setKeys k).keys = k := rfl
@[simp] theorem State.setKeys_ibuf (k : KeyFile) : (s.setKeys k).ibuf = s.ibuf := rfl
@[simp] theorem State.setKeys_abuf (k : KeyFile) : (s.setKeys k).abuf = s.abuf := rfl
@[simp] theorem State.setKeys_obuf (k : KeyFile) : (s.setKeys k).obuf = s.obuf := rfl
@[simp] theorem State.setKeys_blk (k : KeyFile) : (s.setKeys k).blk = s.blk := rfl
@[simp] theorem State.setKeys_oblk (k : KeyFile) : (s.setKeys k).oblk = s.oblk := rfl
@[simp] theorem State.setKeys_cDir (k : KeyFile) : (s.setKeys k).cDir = s.cDir := rfl
@[simp] theorem State.setKeys_cDevaddr (k : KeyFile) : (s.setKeys k).cDevaddr = s.cDevaddr := rfl
@[simp] theorem State.setKeys_cFcnt32 (k : KeyFile) : (s.setKeys k).cFcnt32 = s.cFcnt32 := rfl
@[simp] theorem State.setKeys_cBlkidx (k : KeyFile) : (s.setKeys k).cBlkidx = s.cBlkidx := rfl
@[simp] theorem State.setKeys_xByteoff (k : KeyFile) : (s.setKeys k).xByteoff = s.xByteoff := rfl
@[simp] theorem State.setKeys_xBitoff (k : KeyFile) : (s.setKeys k).xBitoff = s.xBitoff := rfl
@[simp] theorem State.setKeys_xWidth (k : KeyFile) : (s.setKeys k).xWidth = s.xWidth := rfl
@[simp] theorem State.setKeys_xVal (k : KeyFile) : (s.setKeys k).xVal = s.xVal := rfl
@[simp] theorem State.setKeys_nAppnonce (k : KeyFile) : (s.setKeys k).nAppnonce = s.nAppnonce := rfl
@[simp] theorem State.setKeys_nId (k : KeyFile) : (s.setKeys k).nId = s.nId := rfl
@[simp] theorem State.setKeys_nDevnonce (k : KeyFile) : (s.setKeys k).nDevnonce = s.nDevnonce := rfl
@[simp] theorem State.setKeys_f (k : KeyFile) : (s.setKeys k).f = s.f := rfl
@[simp] theorem State.setKeys_mic (k : KeyFile) : (s.setKeys k).mic = s.mic := rfl
@[simp] theorem State.setKeys_inbox (k : KeyFile) : (s.setKeys k).inbox = s.inbox := rfl
@[simp] theorem State.setKeys_outbox (k : KeyFile) : (s.setKeys k).outbox = s.outbox := rfl
@[simp] theorem State.setKeys_draws (k : KeyFile) : (s.setKeys k).draws = s.draws := rfl

@[simp] theorem State.setOblk_ver (v : Option Block) : (s.setOblk v).ver = s.ver := rfl
@[simp] theorem State.setOblk_fcnthi (v : Option Block) : (s.setOblk v).fcnthi = s.fcnthi := rfl
@[simp] theorem State.setOblk_err (v : Option Block) : (s.setOblk v).err = s.err := rfl
@[simp] theorem State.setOblk_erracc (v : Option Block) : (s.setOblk v).erracc = s.erracc := rfl
@[simp] theorem State.setOblk_keys (v : Option Block) : (s.setOblk v).keys = s.keys := rfl
@[simp] theorem State.setOblk_ibuf (v : Option Block) : (s.setOblk v).ibuf = s.ibuf := rfl
@[simp] theorem State.setOblk_abuf (v : Option Block) : (s.setOblk v).abuf = s.abuf := rfl
@[simp] theorem State.setOblk_obuf (v : Option Block) : (s.setOblk v).obuf = s.obuf := rfl
@[simp] theorem State.setOblk_blk (v : Option Block) : (s.setOblk v).blk = s.blk := rfl
@[simp] theorem State.setOblk_oblk (v : Option Block) : (s.setOblk v).oblk = v := rfl
@[simp] theorem State.setOblk_cDir (v : Option Block) : (s.setOblk v).cDir = s.cDir := rfl
@[simp] theorem State.setOblk_cDevaddr (v : Option Block) : (s.setOblk v).cDevaddr = s.cDevaddr := rfl
@[simp] theorem State.setOblk_cFcnt32 (v : Option Block) : (s.setOblk v).cFcnt32 = s.cFcnt32 := rfl
@[simp] theorem State.setOblk_cBlkidx (v : Option Block) : (s.setOblk v).cBlkidx = s.cBlkidx := rfl
@[simp] theorem State.setOblk_xByteoff (v : Option Block) : (s.setOblk v).xByteoff = s.xByteoff := rfl
@[simp] theorem State.setOblk_xBitoff (v : Option Block) : (s.setOblk v).xBitoff = s.xBitoff := rfl
@[simp] theorem State.setOblk_xWidth (v : Option Block) : (s.setOblk v).xWidth = s.xWidth := rfl
@[simp] theorem State.setOblk_xVal (v : Option Block) : (s.setOblk v).xVal = s.xVal := rfl
@[simp] theorem State.setOblk_nAppnonce (v : Option Block) : (s.setOblk v).nAppnonce = s.nAppnonce := rfl
@[simp] theorem State.setOblk_nId (v : Option Block) : (s.setOblk v).nId = s.nId := rfl
@[simp] theorem State.setOblk_nDevnonce (v : Option Block) : (s.setOblk v).nDevnonce = s.nDevnonce := rfl
@[simp] theorem State.setOblk_f (v : Option Block) : (s.setOblk v).f = s.f := rfl
@[simp] theorem State.setOblk_mic (v : Option Block) : (s.setOblk v).mic = s.mic := rfl
@[simp] theorem State.setOblk_inbox (v : Option Block) : (s.setOblk v).inbox = s.inbox := rfl
@[simp] theorem State.setOblk_outbox (v : Option Block) : (s.setOblk v).outbox = s.outbox := rfl
@[simp] theorem State.setOblk_draws (v : Option Block) : (s.setOblk v).draws = s.draws := rfl

@[simp] theorem State.setXVal_ver (v : Option (BitVec 64)) : (s.setXVal v).ver = s.ver := rfl
@[simp] theorem State.setXVal_fcnthi (v : Option (BitVec 64)) : (s.setXVal v).fcnthi = s.fcnthi := rfl
@[simp] theorem State.setXVal_err (v : Option (BitVec 64)) : (s.setXVal v).err = s.err := rfl
@[simp] theorem State.setXVal_erracc (v : Option (BitVec 64)) : (s.setXVal v).erracc = s.erracc := rfl
@[simp] theorem State.setXVal_keys (v : Option (BitVec 64)) : (s.setXVal v).keys = s.keys := rfl
@[simp] theorem State.setXVal_ibuf (v : Option (BitVec 64)) : (s.setXVal v).ibuf = s.ibuf := rfl
@[simp] theorem State.setXVal_abuf (v : Option (BitVec 64)) : (s.setXVal v).abuf = s.abuf := rfl
@[simp] theorem State.setXVal_obuf (v : Option (BitVec 64)) : (s.setXVal v).obuf = s.obuf := rfl
@[simp] theorem State.setXVal_blk (v : Option (BitVec 64)) : (s.setXVal v).blk = s.blk := rfl
@[simp] theorem State.setXVal_oblk (v : Option (BitVec 64)) : (s.setXVal v).oblk = s.oblk := rfl
@[simp] theorem State.setXVal_cDir (v : Option (BitVec 64)) : (s.setXVal v).cDir = s.cDir := rfl
@[simp] theorem State.setXVal_cDevaddr (v : Option (BitVec 64)) : (s.setXVal v).cDevaddr = s.cDevaddr := rfl
@[simp] theorem State.setXVal_cFcnt32 (v : Option (BitVec 64)) : (s.setXVal v).cFcnt32 = s.cFcnt32 := rfl
@[simp] theorem State.setXVal_cBlkidx (v : Option (BitVec 64)) : (s.setXVal v).cBlkidx = s.cBlkidx := rfl
@[simp] theorem State.setXVal_xByteoff (v : Option (BitVec 64)) : (s.setXVal v).xByteoff = s.xByteoff := rfl
@[simp] theorem State.setXVal_xBitoff (v : Option (BitVec 64)) : (s.setXVal v).xBitoff = s.xBitoff := rfl
@[simp] theorem State.setXVal_xWidth (v : Option (BitVec 64)) : (s.setXVal v).xWidth = s.xWidth := rfl
@[simp] theorem State.setXVal_xVal (v : Option (BitVec 64)) : (s.setXVal v).xVal = v := rfl
@[simp] theorem State.setXVal_nAppnonce (v : Option (BitVec 64)) : (s.setXVal v).nAppnonce = s.nAppnonce := rfl
@[simp] theorem State.setXVal_nId (v : Option (BitVec 64)) : (s.setXVal v).nId = s.nId := rfl
@[simp] theorem State.setXVal_nDevnonce (v : Option (BitVec 64)) : (s.setXVal v).nDevnonce = s.nDevnonce := rfl
@[simp] theorem State.setXVal_f (v : Option (BitVec 64)) : (s.setXVal v).f = s.f := rfl
@[simp] theorem State.setXVal_mic (v : Option (BitVec 64)) : (s.setXVal v).mic = s.mic := rfl
@[simp] theorem State.setXVal_inbox (v : Option (BitVec 64)) : (s.setXVal v).inbox = s.inbox := rfl
@[simp] theorem State.setXVal_outbox (v : Option (BitVec 64)) : (s.setXVal v).outbox = s.outbox := rfl
@[simp] theorem State.setXVal_draws (v : Option (BitVec 64)) : (s.setXVal v).draws = s.draws := rfl

@[simp] theorem State.setObuf_ver (b : List Byte) : (s.setObuf b).ver = s.ver := rfl
@[simp] theorem State.setObuf_fcnthi (b : List Byte) : (s.setObuf b).fcnthi = s.fcnthi := rfl
@[simp] theorem State.setObuf_err (b : List Byte) : (s.setObuf b).err = s.err := rfl
@[simp] theorem State.setObuf_erracc (b : List Byte) : (s.setObuf b).erracc = s.erracc := rfl
@[simp] theorem State.setObuf_keys (b : List Byte) : (s.setObuf b).keys = s.keys := rfl
@[simp] theorem State.setObuf_ibuf (b : List Byte) : (s.setObuf b).ibuf = s.ibuf := rfl
@[simp] theorem State.setObuf_abuf (b : List Byte) : (s.setObuf b).abuf = s.abuf := rfl
@[simp] theorem State.setObuf_obuf (b : List Byte) : (s.setObuf b).obuf = Memory.ofBytes b := rfl
@[simp] theorem State.setObuf_blk (b : List Byte) : (s.setObuf b).blk = s.blk := rfl
@[simp] theorem State.setObuf_oblk (b : List Byte) : (s.setObuf b).oblk = s.oblk := rfl
@[simp] theorem State.setObuf_cDir (b : List Byte) : (s.setObuf b).cDir = s.cDir := rfl
@[simp] theorem State.setObuf_cDevaddr (b : List Byte) : (s.setObuf b).cDevaddr = s.cDevaddr := rfl
@[simp] theorem State.setObuf_cFcnt32 (b : List Byte) : (s.setObuf b).cFcnt32 = s.cFcnt32 := rfl
@[simp] theorem State.setObuf_cBlkidx (b : List Byte) : (s.setObuf b).cBlkidx = s.cBlkidx := rfl
@[simp] theorem State.setObuf_xByteoff (b : List Byte) : (s.setObuf b).xByteoff = s.xByteoff := rfl
@[simp] theorem State.setObuf_xBitoff (b : List Byte) : (s.setObuf b).xBitoff = s.xBitoff := rfl
@[simp] theorem State.setObuf_xWidth (b : List Byte) : (s.setObuf b).xWidth = s.xWidth := rfl
@[simp] theorem State.setObuf_xVal (b : List Byte) : (s.setObuf b).xVal = s.xVal := rfl
@[simp] theorem State.setObuf_nAppnonce (b : List Byte) : (s.setObuf b).nAppnonce = s.nAppnonce := rfl
@[simp] theorem State.setObuf_nId (b : List Byte) : (s.setObuf b).nId = s.nId := rfl
@[simp] theorem State.setObuf_nDevnonce (b : List Byte) : (s.setObuf b).nDevnonce = s.nDevnonce := rfl
@[simp] theorem State.setObuf_f (b : List Byte) : (s.setObuf b).f = s.f := rfl
@[simp] theorem State.setObuf_mic (b : List Byte) : (s.setObuf b).mic = s.mic := rfl
@[simp] theorem State.setObuf_inbox (b : List Byte) : (s.setObuf b).inbox = s.inbox := rfl
@[simp] theorem State.setObuf_outbox (b : List Byte) : (s.setObuf b).outbox = s.outbox := rfl
@[simp] theorem State.setObuf_draws (b : List Byte) : (s.setObuf b).draws = s.draws := rfl

@[simp] theorem State.setFields_ver (g : Fields) : (s.setFields g).ver = s.ver := rfl
@[simp] theorem State.setFields_fcnthi (g : Fields) : (s.setFields g).fcnthi = s.fcnthi := rfl
@[simp] theorem State.setFields_err (g : Fields) : (s.setFields g).err = s.err := rfl
@[simp] theorem State.setFields_erracc (g : Fields) : (s.setFields g).erracc = s.erracc := rfl
@[simp] theorem State.setFields_keys (g : Fields) : (s.setFields g).keys = s.keys := rfl
@[simp] theorem State.setFields_ibuf (g : Fields) : (s.setFields g).ibuf = s.ibuf := rfl
@[simp] theorem State.setFields_abuf (g : Fields) : (s.setFields g).abuf = s.abuf := rfl
@[simp] theorem State.setFields_obuf (g : Fields) : (s.setFields g).obuf = s.obuf := rfl
@[simp] theorem State.setFields_blk (g : Fields) : (s.setFields g).blk = s.blk := rfl
@[simp] theorem State.setFields_oblk (g : Fields) : (s.setFields g).oblk = s.oblk := rfl
@[simp] theorem State.setFields_cDir (g : Fields) : (s.setFields g).cDir = s.cDir := rfl
@[simp] theorem State.setFields_cDevaddr (g : Fields) : (s.setFields g).cDevaddr = s.cDevaddr := rfl
@[simp] theorem State.setFields_cFcnt32 (g : Fields) : (s.setFields g).cFcnt32 = s.cFcnt32 := rfl
@[simp] theorem State.setFields_cBlkidx (g : Fields) : (s.setFields g).cBlkidx = s.cBlkidx := rfl
@[simp] theorem State.setFields_xByteoff (g : Fields) : (s.setFields g).xByteoff = s.xByteoff := rfl
@[simp] theorem State.setFields_xBitoff (g : Fields) : (s.setFields g).xBitoff = s.xBitoff := rfl
@[simp] theorem State.setFields_xWidth (g : Fields) : (s.setFields g).xWidth = s.xWidth := rfl
@[simp] theorem State.setFields_xVal (g : Fields) : (s.setFields g).xVal = s.xVal := rfl
@[simp] theorem State.setFields_nAppnonce (g : Fields) : (s.setFields g).nAppnonce = s.nAppnonce := rfl
@[simp] theorem State.setFields_nId (g : Fields) : (s.setFields g).nId = s.nId := rfl
@[simp] theorem State.setFields_nDevnonce (g : Fields) : (s.setFields g).nDevnonce = s.nDevnonce := rfl
@[simp] theorem State.setFields_f (g : Fields) : (s.setFields g).f = g := rfl
@[simp] theorem State.setFields_mic (g : Fields) : (s.setFields g).mic = s.mic := rfl
@[simp] theorem State.setFields_inbox (g : Fields) : (s.setFields g).inbox = s.inbox := rfl
@[simp] theorem State.setFields_outbox (g : Fields) : (s.setFields g).outbox = s.outbox := rfl
@[simp] theorem State.setFields_draws (g : Fields) : (s.setFields g).draws = s.draws := rfl

@[simp] theorem State.setMic_ver (m : MicRegs) : (s.setMic m).ver = s.ver := rfl
@[simp] theorem State.setMic_fcnthi (m : MicRegs) : (s.setMic m).fcnthi = s.fcnthi := rfl
@[simp] theorem State.setMic_err (m : MicRegs) : (s.setMic m).err = s.err := rfl
@[simp] theorem State.setMic_erracc (m : MicRegs) : (s.setMic m).erracc = s.erracc := rfl
@[simp] theorem State.setMic_keys (m : MicRegs) : (s.setMic m).keys = s.keys := rfl
@[simp] theorem State.setMic_ibuf (m : MicRegs) : (s.setMic m).ibuf = s.ibuf := rfl
@[simp] theorem State.setMic_abuf (m : MicRegs) : (s.setMic m).abuf = s.abuf := rfl
@[simp] theorem State.setMic_obuf (m : MicRegs) : (s.setMic m).obuf = s.obuf := rfl
@[simp] theorem State.setMic_blk (m : MicRegs) : (s.setMic m).blk = s.blk := rfl
@[simp] theorem State.setMic_oblk (m : MicRegs) : (s.setMic m).oblk = s.oblk := rfl
@[simp] theorem State.setMic_cDir (m : MicRegs) : (s.setMic m).cDir = s.cDir := rfl
@[simp] theorem State.setMic_cDevaddr (m : MicRegs) : (s.setMic m).cDevaddr = s.cDevaddr := rfl
@[simp] theorem State.setMic_cFcnt32 (m : MicRegs) : (s.setMic m).cFcnt32 = s.cFcnt32 := rfl
@[simp] theorem State.setMic_cBlkidx (m : MicRegs) : (s.setMic m).cBlkidx = s.cBlkidx := rfl
@[simp] theorem State.setMic_xByteoff (m : MicRegs) : (s.setMic m).xByteoff = s.xByteoff := rfl
@[simp] theorem State.setMic_xBitoff (m : MicRegs) : (s.setMic m).xBitoff = s.xBitoff := rfl
@[simp] theorem State.setMic_xWidth (m : MicRegs) : (s.setMic m).xWidth = s.xWidth := rfl
@[simp] theorem State.setMic_xVal (m : MicRegs) : (s.setMic m).xVal = s.xVal := rfl
@[simp] theorem State.setMic_nAppnonce (m : MicRegs) : (s.setMic m).nAppnonce = s.nAppnonce := rfl
@[simp] theorem State.setMic_nId (m : MicRegs) : (s.setMic m).nId = s.nId := rfl
@[simp] theorem State.setMic_nDevnonce (m : MicRegs) : (s.setMic m).nDevnonce = s.nDevnonce := rfl
@[simp] theorem State.setMic_f (m : MicRegs) : (s.setMic m).f = s.f := rfl
@[simp] theorem State.setMic_mic (m : MicRegs) : (s.setMic m).mic = m := rfl
@[simp] theorem State.setMic_inbox (m : MicRegs) : (s.setMic m).inbox = s.inbox := rfl
@[simp] theorem State.setMic_outbox (m : MicRegs) : (s.setMic m).outbox = s.outbox := rfl
@[simp] theorem State.setMic_draws (m : MicRegs) : (s.setMic m).draws = s.draws := rfl

@[simp] theorem State.setMicDerived_ver (v : Option (BitVec 32)) : (s.setMicDerived v).ver = s.ver := rfl
@[simp] theorem State.setMicDerived_fcnthi (v : Option (BitVec 32)) : (s.setMicDerived v).fcnthi = s.fcnthi := rfl
@[simp] theorem State.setMicDerived_err (v : Option (BitVec 32)) : (s.setMicDerived v).err = s.err := rfl
@[simp] theorem State.setMicDerived_erracc (v : Option (BitVec 32)) : (s.setMicDerived v).erracc = s.erracc := rfl
@[simp] theorem State.setMicDerived_keys (v : Option (BitVec 32)) : (s.setMicDerived v).keys = s.keys := rfl
@[simp] theorem State.setMicDerived_ibuf (v : Option (BitVec 32)) : (s.setMicDerived v).ibuf = s.ibuf := rfl
@[simp] theorem State.setMicDerived_abuf (v : Option (BitVec 32)) : (s.setMicDerived v).abuf = s.abuf := rfl
@[simp] theorem State.setMicDerived_obuf (v : Option (BitVec 32)) : (s.setMicDerived v).obuf = s.obuf := rfl
@[simp] theorem State.setMicDerived_blk (v : Option (BitVec 32)) : (s.setMicDerived v).blk = s.blk := rfl
@[simp] theorem State.setMicDerived_oblk (v : Option (BitVec 32)) : (s.setMicDerived v).oblk = s.oblk := rfl
@[simp] theorem State.setMicDerived_cDir (v : Option (BitVec 32)) : (s.setMicDerived v).cDir = s.cDir := rfl
@[simp] theorem State.setMicDerived_cDevaddr (v : Option (BitVec 32)) : (s.setMicDerived v).cDevaddr = s.cDevaddr := rfl
@[simp] theorem State.setMicDerived_cFcnt32 (v : Option (BitVec 32)) : (s.setMicDerived v).cFcnt32 = s.cFcnt32 := rfl
@[simp] theorem State.setMicDerived_cBlkidx (v : Option (BitVec 32)) : (s.setMicDerived v).cBlkidx = s.cBlkidx := rfl
@[simp] theorem State.setMicDerived_xByteoff (v : Option (BitVec 32)) : (s.setMicDerived v).xByteoff = s.xByteoff := rfl
@[simp] theorem State.setMicDerived_xBitoff (v : Option (BitVec 32)) : (s.setMicDerived v).xBitoff = s.xBitoff := rfl
@[simp] theorem State.setMicDerived_xWidth (v : Option (BitVec 32)) : (s.setMicDerived v).xWidth = s.xWidth := rfl
@[simp] theorem State.setMicDerived_xVal (v : Option (BitVec 32)) : (s.setMicDerived v).xVal = s.xVal := rfl
@[simp] theorem State.setMicDerived_nAppnonce (v : Option (BitVec 32)) : (s.setMicDerived v).nAppnonce = s.nAppnonce := rfl
@[simp] theorem State.setMicDerived_nId (v : Option (BitVec 32)) : (s.setMicDerived v).nId = s.nId := rfl
@[simp] theorem State.setMicDerived_nDevnonce (v : Option (BitVec 32)) : (s.setMicDerived v).nDevnonce = s.nDevnonce := rfl
@[simp] theorem State.setMicDerived_f (v : Option (BitVec 32)) : (s.setMicDerived v).f = s.f := rfl
@[simp] theorem State.setMicDerived_mic (v : Option (BitVec 32)) : (s.setMicDerived v).mic = { s.mic with derived := v } := rfl
@[simp] theorem State.setMicDerived_inbox (v : Option (BitVec 32)) : (s.setMicDerived v).inbox = s.inbox := rfl
@[simp] theorem State.setMicDerived_outbox (v : Option (BitVec 32)) : (s.setMicDerived v).outbox = s.outbox := rfl
@[simp] theorem State.setMicDerived_draws (v : Option (BitVec 32)) : (s.setMicDerived v).draws = s.draws := rfl

@[simp] theorem State.succeed_ver : (s.succeed).ver = s.ver := rfl
@[simp] theorem State.succeed_fcnthi : (s.succeed).fcnthi = s.fcnthi := rfl
@[simp] theorem State.succeed_err : (s.succeed).err = 0 := rfl
@[simp] theorem State.succeed_erracc : (s.succeed).erracc = s.erracc := rfl
@[simp] theorem State.succeed_keys : (s.succeed).keys = s.keys := rfl
@[simp] theorem State.succeed_ibuf : (s.succeed).ibuf = s.ibuf := rfl
@[simp] theorem State.succeed_abuf : (s.succeed).abuf = s.abuf := rfl
@[simp] theorem State.succeed_obuf : (s.succeed).obuf = s.obuf := rfl
@[simp] theorem State.succeed_blk : (s.succeed).blk = s.blk := rfl
@[simp] theorem State.succeed_oblk : (s.succeed).oblk = s.oblk := rfl
@[simp] theorem State.succeed_cDir : (s.succeed).cDir = s.cDir := rfl
@[simp] theorem State.succeed_cDevaddr : (s.succeed).cDevaddr = s.cDevaddr := rfl
@[simp] theorem State.succeed_cFcnt32 : (s.succeed).cFcnt32 = s.cFcnt32 := rfl
@[simp] theorem State.succeed_cBlkidx : (s.succeed).cBlkidx = s.cBlkidx := rfl
@[simp] theorem State.succeed_xByteoff : (s.succeed).xByteoff = s.xByteoff := rfl
@[simp] theorem State.succeed_xBitoff : (s.succeed).xBitoff = s.xBitoff := rfl
@[simp] theorem State.succeed_xWidth : (s.succeed).xWidth = s.xWidth := rfl
@[simp] theorem State.succeed_xVal : (s.succeed).xVal = s.xVal := rfl
@[simp] theorem State.succeed_nAppnonce : (s.succeed).nAppnonce = s.nAppnonce := rfl
@[simp] theorem State.succeed_nId : (s.succeed).nId = s.nId := rfl
@[simp] theorem State.succeed_nDevnonce : (s.succeed).nDevnonce = s.nDevnonce := rfl
@[simp] theorem State.succeed_f : (s.succeed).f = s.f := rfl
@[simp] theorem State.succeed_mic : (s.succeed).mic = s.mic := rfl
@[simp] theorem State.succeed_inbox : (s.succeed).inbox = s.inbox := rfl
@[simp] theorem State.succeed_outbox : (s.succeed).outbox = s.outbox := rfl
@[simp] theorem State.succeed_draws : (s.succeed).draws = s.draws := rfl

@[simp] theorem State.raise_ver (e : ErrCode) : (s.raise e).ver = s.ver := rfl
@[simp] theorem State.raise_fcnthi (e : ErrCode) : (s.raise e).fcnthi = s.fcnthi := rfl
@[simp] theorem State.raise_err (e : ErrCode) : (s.raise e).err = e.code := rfl
@[simp] theorem State.raise_erracc (e : ErrCode) : (s.raise e).erracc = s.erracc ||| e.sticky := rfl
@[simp] theorem State.raise_keys (e : ErrCode) : (s.raise e).keys = s.keys := rfl
@[simp] theorem State.raise_ibuf (e : ErrCode) : (s.raise e).ibuf = s.ibuf := rfl
@[simp] theorem State.raise_abuf (e : ErrCode) : (s.raise e).abuf = s.abuf := rfl
@[simp] theorem State.raise_obuf (e : ErrCode) : (s.raise e).obuf = s.obuf := rfl
@[simp] theorem State.raise_blk (e : ErrCode) : (s.raise e).blk = s.blk := rfl
@[simp] theorem State.raise_oblk (e : ErrCode) : (s.raise e).oblk = s.oblk := rfl
@[simp] theorem State.raise_cDir (e : ErrCode) : (s.raise e).cDir = s.cDir := rfl
@[simp] theorem State.raise_cDevaddr (e : ErrCode) : (s.raise e).cDevaddr = s.cDevaddr := rfl
@[simp] theorem State.raise_cFcnt32 (e : ErrCode) : (s.raise e).cFcnt32 = s.cFcnt32 := rfl
@[simp] theorem State.raise_cBlkidx (e : ErrCode) : (s.raise e).cBlkidx = s.cBlkidx := rfl
@[simp] theorem State.raise_xByteoff (e : ErrCode) : (s.raise e).xByteoff = s.xByteoff := rfl
@[simp] theorem State.raise_xBitoff (e : ErrCode) : (s.raise e).xBitoff = s.xBitoff := rfl
@[simp] theorem State.raise_xWidth (e : ErrCode) : (s.raise e).xWidth = s.xWidth := rfl
@[simp] theorem State.raise_xVal (e : ErrCode) : (s.raise e).xVal = s.xVal := rfl
@[simp] theorem State.raise_nAppnonce (e : ErrCode) : (s.raise e).nAppnonce = s.nAppnonce := rfl
@[simp] theorem State.raise_nId (e : ErrCode) : (s.raise e).nId = s.nId := rfl
@[simp] theorem State.raise_nDevnonce (e : ErrCode) : (s.raise e).nDevnonce = s.nDevnonce := rfl
@[simp] theorem State.raise_f (e : ErrCode) : (s.raise e).f = s.f := rfl
@[simp] theorem State.raise_mic (e : ErrCode) : (s.raise e).mic = s.mic := rfl
@[simp] theorem State.raise_inbox (e : ErrCode) : (s.raise e).inbox = s.inbox := rfl
@[simp] theorem State.raise_outbox (e : ErrCode) : (s.raise e).outbox = s.outbox := rfl
@[simp] theorem State.raise_draws (e : ErrCode) : (s.raise e).draws = s.draws := rfl

@[simp] theorem State.illegalCommand_ver : (s.illegalCommand).ver = s.ver := rfl
@[simp] theorem State.illegalCommand_fcnthi : (s.illegalCommand).fcnthi = s.fcnthi := rfl
@[simp] theorem State.illegalCommand_err : (s.illegalCommand).err = 5 := rfl
@[simp] theorem State.illegalCommand_erracc : (s.illegalCommand).erracc = s.erracc ||| 0x20#8 := rfl
@[simp] theorem State.illegalCommand_keys : (s.illegalCommand).keys = s.keys := rfl
@[simp] theorem State.illegalCommand_ibuf : (s.illegalCommand).ibuf = s.ibuf := rfl
@[simp] theorem State.illegalCommand_abuf : (s.illegalCommand).abuf = s.abuf := rfl
@[simp] theorem State.illegalCommand_obuf : (s.illegalCommand).obuf = s.obuf := rfl
@[simp] theorem State.illegalCommand_blk : (s.illegalCommand).blk = s.blk := rfl
@[simp] theorem State.illegalCommand_oblk : (s.illegalCommand).oblk = s.oblk := rfl
@[simp] theorem State.illegalCommand_cDir : (s.illegalCommand).cDir = s.cDir := rfl
@[simp] theorem State.illegalCommand_cDevaddr : (s.illegalCommand).cDevaddr = s.cDevaddr := rfl
@[simp] theorem State.illegalCommand_cFcnt32 : (s.illegalCommand).cFcnt32 = s.cFcnt32 := rfl
@[simp] theorem State.illegalCommand_cBlkidx : (s.illegalCommand).cBlkidx = s.cBlkidx := rfl
@[simp] theorem State.illegalCommand_xByteoff : (s.illegalCommand).xByteoff = s.xByteoff := rfl
@[simp] theorem State.illegalCommand_xBitoff : (s.illegalCommand).xBitoff = s.xBitoff := rfl
@[simp] theorem State.illegalCommand_xWidth : (s.illegalCommand).xWidth = s.xWidth := rfl
@[simp] theorem State.illegalCommand_xVal : (s.illegalCommand).xVal = s.xVal := rfl
@[simp] theorem State.illegalCommand_nAppnonce : (s.illegalCommand).nAppnonce = s.nAppnonce := rfl
@[simp] theorem State.illegalCommand_nId : (s.illegalCommand).nId = s.nId := rfl
@[simp] theorem State.illegalCommand_nDevnonce : (s.illegalCommand).nDevnonce = s.nDevnonce := rfl
@[simp] theorem State.illegalCommand_f : (s.illegalCommand).f = s.f := rfl
@[simp] theorem State.illegalCommand_mic : (s.illegalCommand).mic = s.mic := rfl
@[simp] theorem State.illegalCommand_inbox : (s.illegalCommand).inbox = s.inbox := rfl
@[simp] theorem State.illegalCommand_outbox : (s.illegalCommand).outbox = s.outbox := rfl
@[simp] theorem State.illegalCommand_draws : (s.illegalCommand).draws = s.draws := rfl

@[simp] theorem State.answer_ver (r : ReadResult) : (s.answer r).ver = s.ver := rfl
@[simp] theorem State.answer_fcnthi (r : ReadResult) : (s.answer r).fcnthi = s.fcnthi := rfl
@[simp] theorem State.answer_err (r : ReadResult) : (s.answer r).err = s.err := rfl
@[simp] theorem State.answer_erracc (r : ReadResult) : (s.answer r).erracc = s.erracc := rfl
@[simp] theorem State.answer_keys (r : ReadResult) : (s.answer r).keys = s.keys := rfl
@[simp] theorem State.answer_ibuf (r : ReadResult) : (s.answer r).ibuf = s.ibuf := rfl
@[simp] theorem State.answer_abuf (r : ReadResult) : (s.answer r).abuf = s.abuf := rfl
@[simp] theorem State.answer_obuf (r : ReadResult) : (s.answer r).obuf = s.obuf := rfl
@[simp] theorem State.answer_blk (r : ReadResult) : (s.answer r).blk = s.blk := rfl
@[simp] theorem State.answer_oblk (r : ReadResult) : (s.answer r).oblk = s.oblk := rfl
@[simp] theorem State.answer_cDir (r : ReadResult) : (s.answer r).cDir = s.cDir := rfl
@[simp] theorem State.answer_cDevaddr (r : ReadResult) : (s.answer r).cDevaddr = s.cDevaddr := rfl
@[simp] theorem State.answer_cFcnt32 (r : ReadResult) : (s.answer r).cFcnt32 = s.cFcnt32 := rfl
@[simp] theorem State.answer_cBlkidx (r : ReadResult) : (s.answer r).cBlkidx = s.cBlkidx := rfl
@[simp] theorem State.answer_xByteoff (r : ReadResult) : (s.answer r).xByteoff = s.xByteoff := rfl
@[simp] theorem State.answer_xBitoff (r : ReadResult) : (s.answer r).xBitoff = s.xBitoff := rfl
@[simp] theorem State.answer_xWidth (r : ReadResult) : (s.answer r).xWidth = s.xWidth := rfl
@[simp] theorem State.answer_xVal (r : ReadResult) : (s.answer r).xVal = s.xVal := rfl
@[simp] theorem State.answer_nAppnonce (r : ReadResult) : (s.answer r).nAppnonce = s.nAppnonce := rfl
@[simp] theorem State.answer_nId (r : ReadResult) : (s.answer r).nId = s.nId := rfl
@[simp] theorem State.answer_nDevnonce (r : ReadResult) : (s.answer r).nDevnonce = s.nDevnonce := rfl
@[simp] theorem State.answer_f (r : ReadResult) : (s.answer r).f = s.f := rfl
@[simp] theorem State.answer_mic (r : ReadResult) : (s.answer r).mic = s.mic := rfl
@[simp] theorem State.answer_inbox (r : ReadResult) : (s.answer r).inbox = s.inbox := rfl
@[simp] theorem State.answer_outbox (r : ReadResult) : (s.answer r).outbox = r :: s.outbox := rfl
@[simp] theorem State.answer_draws (r : ReadResult) : (s.answer r).draws = s.draws := rfl

@[simp] theorem State.clear_ver : s.clear.ver = State.reset.ver := rfl
@[simp] theorem State.clear_fcnthi : s.clear.fcnthi = State.reset.fcnthi := rfl
@[simp] theorem State.clear_err : s.clear.err = State.reset.err := rfl
@[simp] theorem State.clear_erracc : s.clear.erracc = State.reset.erracc := rfl
@[simp] theorem State.clear_keys : s.clear.keys = State.reset.keys := rfl
@[simp] theorem State.clear_ibuf : s.clear.ibuf = State.reset.ibuf := rfl
@[simp] theorem State.clear_abuf : s.clear.abuf = State.reset.abuf := rfl
@[simp] theorem State.clear_obuf : s.clear.obuf = State.reset.obuf := rfl
@[simp] theorem State.clear_blk : s.clear.blk = State.reset.blk := rfl
@[simp] theorem State.clear_oblk : s.clear.oblk = State.reset.oblk := rfl
@[simp] theorem State.clear_cDir : s.clear.cDir = State.reset.cDir := rfl
@[simp] theorem State.clear_cDevaddr : s.clear.cDevaddr = State.reset.cDevaddr := rfl
@[simp] theorem State.clear_cFcnt32 : s.clear.cFcnt32 = State.reset.cFcnt32 := rfl
@[simp] theorem State.clear_cBlkidx : s.clear.cBlkidx = State.reset.cBlkidx := rfl
@[simp] theorem State.clear_xByteoff : s.clear.xByteoff = State.reset.xByteoff := rfl
@[simp] theorem State.clear_xBitoff : s.clear.xBitoff = State.reset.xBitoff := rfl
@[simp] theorem State.clear_xWidth : s.clear.xWidth = State.reset.xWidth := rfl
@[simp] theorem State.clear_xVal : s.clear.xVal = State.reset.xVal := rfl
@[simp] theorem State.clear_nAppnonce : s.clear.nAppnonce = State.reset.nAppnonce := rfl
@[simp] theorem State.clear_nId : s.clear.nId = State.reset.nId := rfl
@[simp] theorem State.clear_nDevnonce : s.clear.nDevnonce = State.reset.nDevnonce := rfl
@[simp] theorem State.clear_f : s.clear.f = State.reset.f := rfl
@[simp] theorem State.clear_mic : s.clear.mic = State.reset.mic := rfl
@[simp] theorem State.clear_inbox : s.clear.inbox = s.inbox := rfl
@[simp] theorem State.clear_outbox : s.clear.outbox = s.outbox := rfl
@[simp] theorem State.clear_draws : s.clear.draws = s.draws := rfl

end Sys2Proof.Machine
end

