-- ==== Sys2Proof/Laws/Exec.lean ====
section
/-! SUPPORT. Once for each meaning and for each action of the host: everything it can do. -/

namespace Sys2Proof.Machine

/-- What a command that computes one result can do: end without error and deliver it, or end with the
error and clear it. -/
theorem execAesenc_cases (ks : Slot) (s : State) :
    (∃ b, aesencResult ks s = .ok b ∧ execAesenc ks s = .next (s.setOblk (some b)).succeed) ∨
      (∃ e, aesencResult ks s = .error e ∧ execAesenc ks s = .next ((s.setOblk none).raise e)) := by
  unfold execAesenc
  cases aesencResult ks s <;> simp

theorem execCmac_cases (ks : Slot) (s : State) :
    (∃ b, cmacResult ks s = .ok b ∧ execCmac ks s = .next (s.setOblk (some b)).succeed) ∨
      (∃ e, cmacResult ks s = .error e ∧ execCmac ks s = .next ((s.setOblk none).raise e)) := by
  unfold execCmac
  cases cmacResult ks s <;> simp

theorem execXbits_cases (le : Bool) (s : State) :
    (∃ v, xbitsResult le s = .ok v ∧ execXbits le s = .next (s.setXVal (some v)).succeed) ∨
      (∃ e, xbitsResult le s = .error e ∧ execXbits le s = .next ((s.setXVal none).raise e)) := by
  unfold execXbits
  cases xbitsResult le s <;> simp

theorem execKstream_cases (ks : Slot) (s : State) :
    (∃ b, kstreamResult ks s = .ok b ∧ execKstream ks s = .next (s.setOblk (some b)).succeed) ∨
      (∃ e, kstreamResult ks s = .error e ∧ execKstream ks s = .next ((s.setOblk none).raise e)) := by
  unfold execKstream
  cases kstreamResult ks s <;> simp

theorem execCrypt_cases (ks : Slot) (s : State) :
    (∃ b, cryptResult ks s = .ok b ∧ execCrypt ks s = .next (s.setObuf b).succeed) ∨
      (∃ e, cryptResult ks s = .error e ∧ execCrypt ks s = .next ((s.setObuf []).raise e)) := by
  unfold execCrypt
  cases cryptResult ks s <;> simp

theorem execKdf_cases (s : State) :
    (∃ k, kdfResult s = .ok k ∧ execKdf s = .next (s.setKeys (s.keys.install k)).succeed) ∨
      (∃ e, kdfResult s = .error e ∧ execKdf s = .next (s.raise e)) := by
  unfold execKdf
  cases kdfResult s <;> simp

theorem execDerive_cases (s : State) :
    (∃ k, deriveResult s = .ok k ∧ execDerive s = .next (s.setKeys (s.keys.install k)).succeed) ∨
      (∃ e, deriveResult s = .error e ∧ execDerive s = .next (s.raise e)) := by
  unfold execDerive
  cases deriveResult s <;> simp

theorem execCmic_cases (s : State) :
    (∃ m, micResult s = .ok m ∧ execCmic s = .next (s.setMicDerived m.derived).succeed) ∨
      (∃ e, micResult s = .error e ∧ execCmic s = .next ((s.setMicDerived none).raise e)) := by
  unfold execCmic
  cases micResult s <;> simp

theorem execVmic_cases (s : State) :
    (∃ m, micResult s = .ok m ∧ execVmic s = .next (s.setMic m).succeed) ∨
      (∃ e, micResult s = .error e ∧ execVmic s = .next ((s.setMic MicRegs.empty).raise e)) := by
  unfold execVmic
  cases micResult s <;> simp

/-- What PARSE can do: an unusable version, a malformed frame, or a frame. -/
theorem execParse_cases (s : State) :
    (∃ e, verOperand s = .error e ∧
        execParse s = .next (((s.setFields Fields.empty).setObuf []).raise e)) ∨
      (∃ ver m, verOperand s = .ok ver ∧ parseInput ver s = .malformed m ∧
        execParse s =
          .next (((s.setFields (Fields.malformed m)).setObuf []).raise .malformedFrame)) ∨
      (∃ ver m b, verOperand s = .ok ver ∧ parseInput ver s = .frame m b ∧
        execParse s = .next ((s.setFields (Fields.ofFrame m b)).setObuf b.output).succeed) := by
  unfold execParse
  cases hv : verOperand s with
  | error e => exact .inl ⟨e, rfl, rfl⟩
  | ok ver =>
    refine .inr ?_
    cases hp : parseInput ver s with
    | malformed m => exact .inl ⟨ver, m, rfl, hp, by simp [hp]⟩
    | frame m b => exact .inr ⟨ver, m, b, rfl, hp, by simp [hp]⟩

/-- What DECODE can do: an unusable version, a malformed frame, or a frame. -/
theorem execDecode_cases (s : State) :
    (∃ e, verOperand s = .error e ∧
        execDecode s =
          .next ((((s.setFields Fields.empty).setObuf []).setMic MicRegs.empty).raise e)) ∨
      (∃ ver m, verOperand s = .ok ver ∧ parseInput ver s = .malformed m ∧
        execDecode s =
          .next ((((s.setFields (Fields.malformed m)).setObuf []).setMic MicRegs.empty).raise
            .malformedFrame)) ∨
      (∃ ver m b, verOperand s = .ok ver ∧ parseInput ver s = .frame m b ∧
        execDecode s =
          .next (((s.setFields (decodedOf ver s.keys s.ibuf.bytes m b).1).setObuf
            (decodedOf ver s.keys s.ibuf.bytes m b).2).setMic
              (micRegs (micInFrame s.ibuf.bytes b)
                (derivedMic ver s.keys s.ibuf.bytes b))).succeed) := by
  unfold execDecode
  cases hv : verOperand s with
  | error e => exact .inl ⟨e, rfl, rfl⟩
  | ok ver =>
    refine .inr ?_
    cases hp : parseInput ver s with
    | malformed m => exact .inl ⟨ver, m, rfl, hp, by simp [hp]⟩
    | frame m b => exact .inr ⟨ver, m, b, rfl, hp, by simp [hp]⟩

/-- What storing a host's value can do. -/
theorem store_cases {α : Type} (v : Option α) (put : α → State) :
    (∃ x, v = some x ∧ store v put = .next (put x)) ∨
      (v = none ∧ store v put = .fault .valueDoesNotFit) := by
  cases v <;> simp [store]

/-- What a HostWriteKey can do: write the slot, or stop by name. -/
theorem hostWriteKey_cases (n : Nat) (b : List Byte) (s : State) :
    (∃ slot k, Slot.ofNumber n = some slot ∧ blockValue b = some k ∧
        hostWriteKey n b s = .next (s.setKeys (s.keys.set slot k))) ∨
      (∃ f, hostWriteKey n b s = .fault f) := by
  unfold hostWriteKey
  cases Slot.ofNumber n <;> cases blockValue b <;> simp

/-- What a HostLoad can do: replace an input buffer, or stop by name. -/
theorem hostLoad_cases (buf : Buf) (b : List Byte) (s : State) :
    (b.length ≤ Config.nbuf ∧
        ((buf = .ibuf ∧ hostLoad buf b s = .next { s with ibuf := Memory.ofBytes b }) ∨
          (buf = .abuf ∧ hostLoad buf b s = .next { s with abuf := Memory.ofBytes b }))) ∨
      (∃ f, hostLoad buf b s = .fault f) := by
  unfold hostLoad
  by_cases h : b.length > Config.nbuf
  · exact .inr ⟨.loadTooLong, by simp [h]⟩
  · cases buf <;> simp [h] <;> omega

/-- What a HostRead can do: answer the host, perhaps with a draw, or stop by name. -/
theorem hostRead_cases (r : RegName) (s : State) :
    (∃ a, hostRead r s = .next (s.answer a)) ∨
      (∃ a, hostRead r s = .next { s.answer a with draws := s.draws + 1 }) ∨
      hostRead r s = .fault .notReadable := by
  unfold hostRead
  split
  · simp
  · exact .inl ⟨_, rfl⟩
  · split
    · exact .inl ⟨_, rfl⟩
    · exact .inr (.inl ⟨_, rfl⟩)

/-- What a step can do: nothing when the host is done, else the host's next action. -/
theorem step_cases (s : State) :
    (s.inbox = [] ∧ step s = .next s) ∨
      (∃ a rest, s.inbox = a :: rest ∧ step s = performAction a { s with inbox := rest }) := by
  unfold step
  cases h : s.inbox with
  | nil => simp
  | cons a rest => exact .inr ⟨a, rest, rfl, rfl⟩

/-- What issuing a word can do: the command it decodes to, or ILLEGAL_COMMAND. -/
theorem issueWord_cases (w : Word) (s : State) :
    (∃ i, decode w = some i ∧ issueWord w s = exec i s) ∨
      (decode w = none ∧ issueWord w s = .next s.illegalCommand) := by
  unfold issueWord
  cases h : decode w with
  | none => simp
  | some i => exact .inl ⟨i, rfl, rfl⟩

end Sys2Proof.Machine
end

