-- ==== Sys2Proof/Laws/PerInstr.lean ====
section
/-! SUPPORT. A family of statements about each command as syntax: its word keeps the fields it does not
use at zero (R50: bits 31:12 of every command; R53: KS and LE where not used). -/

namespace Sys2Proof.Laws

/-- Whether a command uses the field KS (R52). -/
def usesKs : Instr → Bool
  | .aesenc _ | .cmac _ | .kstream _ | .crypt _ => true
  | .nop | .clr | .xbits _ | .parse | .decode | .kdf | .derive | .cmic | .vmic => false

/-- Whether a command uses the field LE (R52). -/
def usesLe : Instr → Bool
  | .xbits _ => true
  | .nop | .clr | .aesenc _ | .cmac _ | .parse | .decode | .kdf | .derive | .kstream _ | .crypt _
  | .cmic | .vmic => false

/-- The unused fields of a command's word are zero (R50, R53). -/
def UnusedFieldsZero.Statement (i : Instr) : Prop :=
  (encode i).extractLsb' 12 20 = 0 ∧ (usesKs i = false → (encode i).extractLsb' 8 3 = 0) ∧
    (usesLe i = false → (encode i).extractLsb' 11 1 = 0)

theorem UnusedFieldsZero.nop : UnusedFieldsZero.Statement .nop := by
  simp [UnusedFieldsZero.Statement, encode, commandWord]

theorem UnusedFieldsZero.clr : UnusedFieldsZero.Statement .clr := by
  simp [UnusedFieldsZero.Statement, encode, commandWord]

theorem UnusedFieldsZero.aesenc (ks : Slot) : UnusedFieldsZero.Statement (.aesenc ks) := by
  cases ks <;> simp [UnusedFieldsZero.Statement, encode, commandWord, Slot.bits, usesKs]

theorem UnusedFieldsZero.cmac (ks : Slot) : UnusedFieldsZero.Statement (.cmac ks) := by
  cases ks <;> simp [UnusedFieldsZero.Statement, encode, commandWord, Slot.bits, usesKs]

theorem UnusedFieldsZero.xbits (le : Bool) : UnusedFieldsZero.Statement (.xbits le) := by
  cases le <;> simp [UnusedFieldsZero.Statement, encode, commandWord, usesLe]

theorem UnusedFieldsZero.parse : UnusedFieldsZero.Statement .parse := by
  simp [UnusedFieldsZero.Statement, encode, commandWord]

theorem UnusedFieldsZero.decode : UnusedFieldsZero.Statement .decode := by
  simp [UnusedFieldsZero.Statement, encode, commandWord]

theorem UnusedFieldsZero.kdf : UnusedFieldsZero.Statement .kdf := by
  simp [UnusedFieldsZero.Statement, encode, commandWord]

theorem UnusedFieldsZero.derive : UnusedFieldsZero.Statement .derive := by
  simp [UnusedFieldsZero.Statement, encode, commandWord]

theorem UnusedFieldsZero.kstream (ks : Slot) : UnusedFieldsZero.Statement (.kstream ks) := by
  cases ks <;> simp [UnusedFieldsZero.Statement, encode, commandWord, Slot.bits, usesKs]

theorem UnusedFieldsZero.crypt (ks : Slot) : UnusedFieldsZero.Statement (.crypt ks) := by
  cases ks <;> simp [UnusedFieldsZero.Statement, encode, commandWord, Slot.bits, usesKs]

theorem UnusedFieldsZero.cmic : UnusedFieldsZero.Statement .cmic := by
  simp [UnusedFieldsZero.Statement, encode, commandWord]

theorem UnusedFieldsZero.vmic : UnusedFieldsZero.Statement .vmic := by
  simp [UnusedFieldsZero.Statement, encode, commandWord]

end Sys2Proof.Laws
end

