-- ==== Sys2Proof/Tests/Slice0.lean ====
section
/-! SUPPORT. The model's own tests: the host actions that do not exist, one word of every command written
out from R50 and R52, the vectors of 95_test_vectors.md (each named in its docstring), and for every
statement with hypotheses a state that meets them. -/

namespace Sys2Proof.Tests

open Sys2Proof Sys2Proof.Machine Sys2Proof.Stated

-- One theorem after the other: side by side, the kernel evaluations take a thread's stack each.
set_option Elab.async false

/-! ## Helpers -/

/-- The n-byte string that a hexadecimal number writes out, its first byte first. -/
def be (n v : Nat) : List Byte := (leBytes n v).reverse

/-- The sixteen-byte string that a hexadecimal number writes out. -/
def block (v : Nat) : Block := blockOf (be 16 v)

/-- The buffer of an n-byte string. -/
def buf (n v : Nat) : Memory := Memory.ofBytes (be n v)

/-- The fixed material of 95_test_vectors.md. -/
def appKey : Block := block 0xBEEF000102030405060708090A0B0C0D
def nwkSKey : Block := block 0x70ff6652c80bcee90b21f2d74bf336b2
def appSKey : Block := block 0x51ebd6666d77121b3782ef59a252e013
def jr : Memory := buf 23 0x00050403020100efbe050403020100efbe87bcc54c5b5f
def ja : Memory := buf 17 0x20b46c0022dae91f38e172ac0312d4bc5b
def ja33 : Memory := buf 33 0x201bf53c311de71d7d72df24f436c36cd2e2ea0bee2b41fda9db856b19b3da361b
def du : Memory := buf 34 0x403409be2b80000002c7fb8963476d5bf4090e6b867a40b597047241eb80aef79df6

/-- Reset, then a version, a frame and a key file. -/
def frameState (ver : BitVec 2) (k : KeyFile) (frame : Memory) : State :=
  { State.reset with ver := some ver, keys := k, ibuf := frame }

/-- The three keys of version 1.0.x. -/
def keys10 : KeyFile :=
  { KeyFile.reset with appkey := some appKey, nwkskey := some nwkSKey, appskey := some appSKey }

/-- The keys of version 1.1 that a frame needs. -/
def keys11 : KeyFile :=
  { KeyFile.reset with
    appkey := some appKey, nwkkey := some appKey, fnwksintkey := some nwkSKey,
    snwksintkey := some appSKey }

/-- The state after a step that goes on; a stop leaves the reset state, which no use of this relies on. -/
def after (o : Host.Outcome State Fault Refusal) : State :=
  match o with
  | .next t => t
  | .fault _ => State.reset
  | .refused _ => State.reset

/-- The outcome is a next state with a property. -/
def gives (o : Host.Outcome State Fault Refusal) (p : State → Bool) : Bool :=
  match o with
  | .next t => p t
  | .fault _ => false
  | .refused _ => false

/-- An outcome that is a next state is the next state it gives. -/
theorem next_after (o : Host.Outcome State Fault Refusal) (p : State → Bool) (h : gives o p = true) :
    o = .next (after o) ∧ p (after o) = true := by
  cases o <;> simp_all [gives, after]

/-- An outcome that is a next state with a property. -/
theorem exists_next (o : Host.Outcome State Fault Refusal) (p : State → Bool) (h : gives o p = true) :
    ∃ t, o = .next t ∧ p t = true :=
  ⟨_, next_after o p h⟩

/-- The outcome is a stop of this name. -/
def stopsWith (o : Host.Outcome State Fault Refusal) (f : Fault) : Bool :=
  match o with
  | .fault g => g == f
  | .next _ => false
  | .refused _ => false

/-- Reset with one host action to come. -/
def withAction (a : HostAction) : State := { State.reset with inbox := [a] }

/-! ## Host actions that do not exist (R11, ID10): each check refuses one -/

theorem test_write_needs_a_writable_register :
    (HostAction.write .oblk (.bytes (zeros 16))).wellFormed = false := by decide
theorem test_write_needs_a_value_that_fits :
    (HostAction.write .ver (.num 4)).wellFormed = false := by decide
theorem test_write_needs_a_value_of_the_shape :
    (HostAction.write .blk (.bytes (zeros 15))).wellFormed = false := by decide
theorem test_write_key_needs_a_slot :
    (HostAction.writeKey 8 (zeros 16)).wellFormed = false := by decide
theorem test_write_key_needs_sixteen_bytes :
    (HostAction.writeKey 0 (zeros 15)).wellFormed = false := by decide
theorem test_load_needs_an_input_buffer :
    (HostAction.load .obuf []).wellFormed = false := by decide
theorem test_load_needs_a_string_that_fits :
    (HostAction.load .ibuf (zeros 257)).wellFormed = false := by decide +kernel
theorem test_load_takes_a_full_buffer :
    (HostAction.load .abuf (zeros 256)).wellFormed = true := by decide +kernel
theorem test_read_needs_a_location : (HostAction.read .cmd).wellFormed = false := by decide
theorem test_write_takes_the_reserved_version :
    (HostAction.write .ver (.num 3)).wellFormed = true := by decide
theorem test_step_refuses_by_name :
    stopsWith (step (withAction (.write .err (.num 0)))) .notHostWritable = true := by decide

/-! ## Words, written out from the fields of R50: ZERO, LE, KS, OP -/

theorem test_decode_nop : decode 0b00000000000000000000_0_000_00000000#32 = some .nop := by decide
theorem test_decode_clr : decode 0b00000000000000000000_0_000_00000001#32 = some .clr := by decide
theorem test_decode_aesenc :
    decode 0b00000000000000000000_0_111_00010000#32 = some (.aesenc .userkey) := by decide
theorem test_decode_cmac :
    decode 0b00000000000000000000_0_001_00010001#32 = some (.cmac .nwkkey) := by decide
theorem test_decode_xbits :
    decode 0b00000000000000000000_0_000_00100000#32 = some (.xbits false) := by decide
theorem test_decode_xbits_le :
    decode 0b00000000000000000000_1_000_00100000#32 = some (.xbits true) := by decide
theorem test_decode_parse : decode 0b00000000000000000000_0_000_00110000#32 = some .parse := by decide
theorem test_decode_decode :
    decode 0b00000000000000000000_0_000_00110001#32 = some .decode := by decide
theorem test_decode_kdf : decode 0b00000000000000000000_0_000_01000000#32 = some .kdf := by decide
theorem test_decode_derive :
    decode 0b00000000000000000000_0_000_01000001#32 = some .derive := by decide
theorem test_decode_kstream :
    decode 0b00000000000000000000_0_100_01010000#32 = some (.kstream .fnwksintkey) := by decide
theorem test_decode_crypt :
    decode 0b00000000000000000000_0_011_01010001#32 = some (.crypt .appskey) := by decide
theorem test_decode_cmic : decode 0b00000000000000000000_0_000_01100000#32 = some .cmic := by decide
theorem test_decode_vmic : decode 0b00000000000000000000_0_000_01100001#32 = some .vmic := by decide

/-- V-D-ILL-1 to V-D-ILL-9. -/
theorem test_decode_illegal :
    ([0x00000002, 0x0000000f, 0x00000100, 0x00000910, 0x00001000, 0x80000031, 0x00000731, 0x00000920,
      0x000000ff] : List Word).all (fun w => (decode w).isNone) = true := by decide

/-- V-D-ILL-1: only the status registers change. -/
theorem test_illegal_word :
    gives (step { frameState 0 keys10 du with inbox := [.issue 0x00000002] })
      (fun t => t == { frameState 0 keys10 du with err := 5, erracc := 0x20 }) = true := by
  decide +kernel

/-- The word placed by withFetchWord is the next that runs. -/
theorem test_fetch_word :
    gives (step (State.reset.withFetchWord 32 0x00000031)) (fun t => t.err == 6 && t.inbox == [])
      = true := by decide

/-! ## The functions -/

/-- R84, key schedule check of V-D-AES-2: round key 10. -/
theorem test_round_key_ten :
    (keyExpand (block 0x000102030405060708090a0b0c0d0e0f))[10]? =
      some (block 0x13111d7fe3944a17f307a78b4d2b30c5) := by decide +kernel

/-- V-S1: the CMAC subkeys of the AppKey. -/
theorem test_cmac_subkeys :
    cmacK1 appKey = block 0x19d9d07d81f22511066cc99a77baa9b1 ∧
      cmacK2 appKey = block 0x33b3a0fb03e44a220cd99334ef755362 := by decide +kernel

/-! ## The commands, on the vectors of 95_test_vectors.md -/

theorem test_nop_keeps_the_sticky_mask :
    gives (exec .nop { State.reset with err := 5, erracc := 0x24 })
      (fun t => t == { State.reset with erracc := 0x24 }) = true := by decide

/-- P3, last line: CLR gives the reset state. -/
theorem test_clr_restores_reset :
    gives (exec .clr { frameState 0 keys10 du with err := 1, erracc := 0x26 })
      (fun t => t == State.reset) = true := by decide +kernel

/-- V-D-AES-2 (FIPS-197 C.1). -/
theorem test_aesenc_fips :
    gives (exec (.aesenc .userkey) { State.reset with
        blk := some (block 0x00112233445566778899aabbccddeeff)
        keys := { KeyFile.reset with userkey := some (block 0x000102030405060708090a0b0c0d0e0f) } })
      (fun t => t.oblk == some (block 0x69c4e0d86a7b0430d8cdb78070b4c55a) && t.err == 0) = true := by
  decide +kernel

/-- V-D-AES-10: the operand is checked before the key. -/
theorem test_aesenc_operand_before_key :
    gives (exec (.aesenc .appkey) State.reset) (fun t => t.err == 6 && t.erracc == 0x40) = true := by
  decide

/-- V-D-CMAC-1: the empty message. -/
theorem test_cmac_empty :
    gives (exec (.cmac .userkey) { State.reset with
        keys := { KeyFile.reset with userkey := some (block 0x2b7e151628aed2a6abf7158809cf4f3c) } })
      (fun t => t.oblk == some (block 0xbb1d6929e95937287fa37d129b756746)) = true := by
  decide +kernel

/-- V-D-CMAC-5: a second block of one byte. -/
theorem test_cmac_partial_block :
    gives (exec (.cmac .userkey) { State.reset with
        keys := { KeyFile.reset with userkey := some (block 0x2b7e151628aed2a6abf7158809cf4f3c) }
        ibuf := buf 17 0x6bc1bee22e409f96e93d7e117393172aae })
      (fun t => t.oblk == some (block 0xbc72cc168ec5a1434dcdb20bc1a2c2a4)) = true := by
  decide +kernel

/-- The buffer of the XBITS vectors, with a span. -/
def spanState (a b : BitVec 16) (w : BitVec 8) : State :=
  { State.reset with
    ibuf := buf 6 0x403409be2b80, xByteoff := some a, xBitoff := some b, xWidth := some w }

/-- V-D-XB-8: a span across a byte boundary. -/
theorem test_xbits_across_bytes :
    gives (exec (.xbits false) (spanState 0 4 8)) (fun t => t.xVal == some 0x03) = true := by decide

/-- V-D-XB-5: little-endian. -/
theorem test_xbits_little_endian :
    gives (exec (.xbits true) (spanState 1 0 32)) (fun t => t.xVal == some 0x2bbe0934) = true := by
  decide

/-- V-D-PARSE-18: a confirmed uplink whose FOpts fill the frame. -/
theorem test_parse_data :
    gives (exec .parse (frameState 0 keys10
        (buf 27 0x80040302014f0100111111111111111111111111111111aabbccdd)))
      (fun t => t.f.kind == some 4 && t.f.dir == some 0 && t.f.adrackreq == some 1 &&
        t.f.foptslen == some 15 && t.f.fport == none && t.f.frmOff == some 23) = true := by
  decide +kernel

/-- V-D-PARSE-21: a Join-Accept with CFList, version 1.1. -/
theorem test_parse_join_accept :
    gives (exec .parse (frameState 2 keys11 ja33))
      (fun t => t.f.appnonce == some 0x123456 && t.f.optneg == some 1 &&
        t.f.rx1droffset == some 2 && t.f.cflist == some (block 0x101112131415161718191a1b1c1d1e1f))
      = true := by decide +kernel

/-- V-D-DEC-9: FPort 0 and a counter above 16 bits. -/
theorem test_decode_port_zero :
    gives (exec .decode { frameState 0 keys10 (buf 15 0xa03409be2b20020000e26aad9e7a13) with
        fcnthi := 1 })
      (fun t => t.f.fcnt32 == some 65538 && t.obuf.bytes == be 2 0x0203 && t.f.payEnc == some 0 &&
        t.mic == { inframe := some 0x137a9ead, derived := some 0x137a9ead, ok := some 1 }) = true := by
  decide +kernel

/-- V-D-DEC-2: without keys the payload passes as it stands. -/
theorem test_decode_without_keys :
    gives (exec .decode (frameState 0 KeyFile.reset du))
      (fun t => t.err == 0 && t.f.payEnc == some 1 &&
        t.obuf.bytes == be 21 0xc7fb8963476d5bf4090e6b867a40b597047241eb80 &&
        t.mic == { inframe := some 0xf69df7ae, derived := none, ok := none }) = true := by
  decide +kernel

/-- V-D-KDF-1. -/
theorem test_kdf_version_10 :
    gives (exec .kdf { frameState 0 { KeyFile.reset with appkey := some appKey } [] with
        nAppnonce := some 0x4c5247, nId := some 0x15, nDevnonce := some 0xbc87 })
      (fun t => t.keys == keys10) = true := by decide +kernel

/-- V-D-KDF-3. -/
theorem test_kdf_version_11 :
    gives (exec .kdf { frameState 2 { KeyFile.reset with
          appkey := some appKey, nwkkey := some (block 0x000102030405060708090a0b0c0d0e0f) } [] with
        nAppnonce := some 0x4c5247, nId := some 0xbeef000102030405, nDevnonce := some 0xbc87 })
      (fun t => t.keys == { KeyFile.reset with
        appkey := some appKey, nwkkey := some (block 0x000102030405060708090a0b0c0d0e0f)
        fnwksintkey := some (block 0x1b1b981cd0b7d8bf7d3ee04231d28a98)
        appskey := some (block 0x811777f75efca4ca4169780d8f46e4ee)
        snwksintkey := some (block 0xc3cf378482d2988f80b0438316618e0b)
        nwksenckey := some (block 0xdb629bccdde1e6a859694eeaa80273e3) }) = true := by decide +kernel

/-- V-D-DRV-1. -/
theorem test_derive :
    gives (exec .derive { frameState 0 { KeyFile.reset with appkey := some appKey } ja with abuf := jr })
      (fun t => t.keys == keys10) = true := by decide +kernel

/-- V-D-DRV-5: an empty Join-Request buffer is no join pair. -/
theorem test_derive_empty_buffer :
    gives (exec .derive (frameState 0 keys10 ja)) (fun t => t.err == 3 && t.erracc == 0x08) = true := by
  decide +kernel

/-- V-D-KS-5 and V-D-KS-6: the cipher context and the block index. -/
def contextState (i : BitVec 8) : State :=
  { frameState 0 keys10 (Memory.ofBytes (zeros 17)) with
    cDir := some 1, cDevaddr := some 0x01020304, cFcnt32 := some 0x12345678, cBlkidx := some i }

/-- V-D-KS-5. -/
theorem test_kstream_index_zero :
    gives (exec (.kstream .appskey) (contextState 0))
      (fun t => t.oblk == some (block 0xc2dccebd715f085fd799084a766cd961)) = true := by decide +kernel

/-- V-D-CR-5: the second block is one byte long. -/
theorem test_crypt_partial_block :
    gives (exec (.crypt .appskey) (contextState 0))
      (fun t => t.obuf == buf 17 0x1083c9fdb61eff905b9e20d17a1c640778) = true := by decide +kernel

/-- V-D-MIC-2: CMIC writes MIC_DERIVED alone. -/
theorem test_cmic_join_request :
    gives (exec .cmic (frameState 0 keys10
        (buf 23 0x00050403020100efbe050403020100efbe87bc00000000)))
      (fun t => t.mic == { inframe := none, derived := some 0x5f5b4cc5, ok := none }) = true := by
  decide +kernel

/-- V-D-MIC-16: a downlink. -/
theorem test_vmic_downlink :
    gives (exec .vmic (frameState 0 keys10 (buf 18 0x603409be2b00010001d89b103210b19fea42)))
      (fun t => t.mic == { inframe := some 0x42ea9fb1, derived := some 0x42ea9fb1, ok := some 1 })
      = true := by decide +kernel

/-- V-D-MIC-3: a mismatch is not an error. -/
theorem test_vmic_mismatch :
    gives (exec .vmic (frameState 0 { KeyFile.reset with appkey := some Block.zero } jr))
      (fun t => t.err == 0 &&
        t.mic == { inframe := some 0x5f5b4cc5, derived := some 0x45b030dd, ok := some 0 }) = true := by
  decide +kernel

/-! ## Witnesses: for every statement with hypotheses, states and operands that meet them, clause by
clause, at the ends of the ranges where a clause has one -/

/-- A block with every byte 0, as a key or an operand. -/
def zeroKey : KeyFile := { KeyFile.reset with appkey := some Block.zero }

/-- A frame of n bytes that begins with an MHDR and is 0 otherwise. -/
def shortFrame (mhdr : Byte) (n : Nat) : Memory := Memory.ofBytes (mhdr :: zeros (n - 1))

theorem witness_OpcodeRowsAreDisjoint :
    ∃ w r, r ∈ rows ∧ Row.selects r w ∧ (rowOf (.aesenc .userkey)).selects w ∧
      operandsAreThoseOf (.aesenc .userkey) w := by
  refine ⟨0x00000710, rowOf (.aesenc .appkey), ?_⟩
  unfold Row.selects operandsAreThoseOf
  decide

theorem witness_IllegalWordsChangeOnlyStatus :
    ∃ w : Word, ∀ r ∈ rows, ¬ Row.selects r w := by
  refine ⟨0x00001000, ?_⟩
  unfold Row.selects
  decide

theorem witness_StepRunsTheDecodedCommand :
    ∃ (s : State) (w : Word) (rest : List HostAction) (i : Instr),
      s.inbox = .issue w :: rest ∧ decode w = some i :=
  ⟨withAction (.issue 0x00000710), 0x00000710, [], .aesenc .userkey, rfl, by decide⟩

theorem witness_AesencEncryptsBlk :
    (∃ s : State, s.blk = none) ∧
      (∃ (ks : Slot) (s : State) (b : Block), s.blk = some b ∧ s.keys.get ks = none) ∧
      ∃ (ks : Slot) (s : State) (b k : Block), s.blk = some b ∧ s.keys.get ks = some k :=
  ⟨⟨State.reset, rfl⟩, ⟨.nwkkey, { State.reset with blk := some appKey }, _, rfl, rfl⟩,
    ⟨.appkey, { State.reset with blk := some appKey, keys := zeroKey }, _, _, rfl, rfl⟩⟩

theorem witness_CmacAuthenticatesIbuf :
    (∃ (ks : Slot) (s : State), s.keys.get ks = none) ∧
      ∃ (ks : Slot) (s : State) (k : Block), s.keys.get ks = some k :=
  ⟨⟨.userkey, State.reset, rfl⟩, ⟨.appkey, frameState 0 zeroKey [], _, rfl⟩⟩

/-- The clauses on the width and on the span, at 64 and 65 bits and on both sides of the end. -/
theorem witness_XbitsExtractsASpan :
    (State.reset.xByteoff = none) ∧
      (∃ a b w, (spanState 0 0 65).xByteoff = some a ∧ (spanState 0 0 65).xBitoff = some b ∧
        (spanState 0 0 65).xWidth = some w ∧ w.toNat > 64) ∧
      (∃ s : State, ∃ a b w, s.xByteoff = some a ∧ s.xBitoff = some b ∧ s.xWidth = some w ∧
        w.toNat ≤ 64 ∧ (b ≠ 0 ∨ w.toNat % 8 ≠ 0)) ∧
      (∃ s : State, ∃ a b w, s.xByteoff = some a ∧ s.xBitoff = some b ∧ s.xWidth = some w ∧
        w.toNat ≤ 64 ∧ b = 0 ∧ w.toNat % 8 = 0 ∧
        8 * a.toNat + b.toNat + w.toNat > 8 * s.ibuf.size) ∧
      (∃ s : State, ∃ a b w, s.xByteoff = some a ∧ s.xBitoff = some b ∧ s.xWidth = some w ∧
        w.toNat = 48 ∧ b = 0 ∧ 8 * a.toNat + b.toNat + w.toNat = 8 * s.ibuf.size) :=
  ⟨rfl, ⟨0, 0, 65, by decide⟩, ⟨spanState 0 1 64, 0, 1, 64, by decide⟩,
    ⟨spanState 0 0 56, 0, 0, 56, by decide⟩, ⟨spanState 0 0 48, 0, 0, 48, by decide⟩⟩

/-- Malformed at 0, 11, 22, 18 and 14 bytes; well-formed at 12. -/
theorem witness_ParseRejectsExactlyMalformedFrames :
    (∃ s : State, usable s.ver ∧ malformed (frame s) ∧ (frame s).length = 0) ∧
      (∃ s : State, usable s.ver ∧ malformed (frame s) ∧ (frame s).length = 11) ∧
      (∃ s : State, usable s.ver ∧ malformed (frame s) ∧ (frame s).length = 22) ∧
      (∃ s : State, usable s.ver ∧ malformed (frame s) ∧ (frame s).length = 18) ∧
      (∃ s : State, usable s.ver ∧ malformed (frame s) ∧ (frame s).length = 14) ∧
      ∃ s : State, usable s.ver ∧ ¬ malformed (frame s) ∧ (frame s).length = 12 := by
  refine ⟨⟨frameState 0 KeyFile.reset [], ?_⟩, ⟨frameState 1 KeyFile.reset (shortFrame 0xe0 11), ?_⟩,
    ⟨frameState 2 KeyFile.reset (shortFrame 0x00 22), ?_⟩,
    ⟨frameState 0 KeyFile.reset (shortFrame 0x20 18), ?_⟩,
    ⟨frameState 0 KeyFile.reset (buf 14 0x40040302010301000203aabbccdd), ?_⟩,
    ⟨frameState 0 KeyFile.reset (shortFrame 0xe0 12), ?_⟩⟩ <;>
  · unfold usable malformed isData frame mtype foptslen
    decide +kernel

theorem witness_ParseSplitsJoinRequests :
    ∃ s : State, usable s.ver ∧ (frame s).length = 23 ∧ mtype (frame s) = 0 := by
  refine ⟨frameState 0 KeyFile.reset jr, ?_⟩
  unfold usable frame mtype
  decide +kernel

/-- Both lengths, with the root key and without, in both kinds of version. -/
theorem witness_ParseRecoversJoinAccepts :
    (∃ (s : State) (k : Block), usable s.ver ∧ (frame s).length = 17 ∧ mtype (frame s) = 1 ∧
        s.keys.get (rootOf s.ver) = some k) ∧
      (∃ (s : State) (k : Block), usable s.ver ∧ (frame s).length = 33 ∧ mtype (frame s) = 1 ∧
        s.keys.get (rootOf s.ver) = some k) ∧
      ∃ s : State, usable s.ver ∧ (frame s).length = 17 ∧ mtype (frame s) = 1 ∧
        s.keys.get (rootOf s.ver) = none := by
  refine ⟨⟨frameState 0 keys10 ja, appKey, ?_⟩, ⟨frameState 2 keys11 ja33, appKey, ?_⟩,
    ⟨frameState 2 keys10 ja, ?_⟩⟩ <;>
  · unfold usable frame mtype rootOf
    decide +kernel

/-- A frame that FHDR and MIC fill, and one with a payload. -/
theorem witness_ParseSplitsDataFrames :
    (∃ s : State, usable s.ver ∧ isData (frame s) ∧
        12 + foptslen (frame s) = (frame s).length) ∧
      ∃ s : State, usable s.ver ∧ isData (frame s) ∧
        12 + foptslen (frame s) < (frame s).length := by
  refine ⟨⟨frameState 0 KeyFile.reset (buf 15 0x40040302010301000203aabbccddee), ?_⟩,
    ⟨frameState 2 keys11 du, ?_⟩⟩ <;>
  · unfold usable isData frame mtype foptslen
    decide +kernel

theorem witness_ParseReportsOpaqueFrames :
    ∃ s : State, usable s.ver ∧ mtype (frame s) = 6 ∧ 12 ≤ (frame s).length := by
  refine ⟨frameState 0 KeyFile.reset (shortFrame 0xc0 12), ?_⟩
  unfold usable frame mtype
  decide +kernel

/-- A state with the nonces of V-D-KDF-1. -/
def nonceState (ver : BitVec 2) (k : KeyFile) : State :=
  { frameState ver k [] with
    nAppnonce := some 0x4c5247, nId := some 0x15, nDevnonce := some 0xbc87 }

theorem witness_KdfDerivesSessionKeys :
    (State.reset.nAppnonce = none) ∧
      (∃ (s : State) (a : BitVec 24) (i : BitVec 64) (d : BitVec 16), s.nAppnonce = some a ∧
        s.nId = some i ∧ s.nDevnonce = some d ∧ usable s.ver ∧ s.keys.appkey = none) ∧
      (∃ (s : State) (a : BitVec 24) (i : BitVec 64) (d : BitVec 16), s.nAppnonce = some a ∧
        s.nId = some i ∧ s.nDevnonce = some d ∧ usable s.ver ∧ s.ver = some 2 ∧
        s.keys.nwkkey = none) ∧
      (∃ (s : State) (a : BitVec 24) (i : BitVec 64) (d : BitVec 16) (k : Block),
        s.nAppnonce = some a ∧ s.nId = some i ∧ s.nDevnonce = some d ∧ is10 s.ver ∧
        s.keys.appkey = some k) ∧
      ∃ (s : State) (a : BitVec 24) (i : BitVec 64) (d : BitVec 16) (k n : Block),
        s.nAppnonce = some a ∧ s.nId = some i ∧ s.nDevnonce = some d ∧ s.ver = some 2 ∧
        s.keys.appkey = some k ∧ s.keys.nwkkey = some n := by
  refine ⟨rfl, ⟨nonceState 0 KeyFile.reset, _, _, _, rfl, rfl, rfl, ?_⟩,
    ⟨nonceState 2 zeroKey, _, _, _, rfl, rfl, rfl, ?_⟩,
    ⟨nonceState 1 zeroKey, _, _, _, Block.zero, rfl, rfl, rfl, ?_⟩,
    ⟨nonceState 2 keys11, _, _, _, _, _, rfl, rfl, rfl, rfl, rfl, rfl⟩⟩ <;>
  · try unfold usable
    try unfold is10
    decide

/-- Each of the four errors of DERIVE, and each way to it. -/
theorem witness_DeriveChecksInOrder :
    (¬ usable State.reset.ver) ∧
      (∃ s : State, usable s.ver ∧ s.keys.appkey = none) ∧
      (∃ s : State, usable s.ver ∧ s.keys.appkey ≠ none ∧ (s.ver = some 2 → s.keys.nwkkey ≠ none) ∧
        s.abuf.bytes.length = 0) ∧
      (∃ s : State, usable s.ver ∧ s.keys.appkey ≠ none ∧ (s.ver = some 2 → s.keys.nwkkey ≠ none) ∧
        mtype s.ibuf.bytes ≠ 1) ∧
      ∃ s : State, usable s.ver ∧ s.keys.appkey ≠ none ∧ (s.ver = some 2 → s.keys.nwkkey ≠ none) ∧
        s.abuf.bytes.length ≠ 0 ∧ mtype s.abuf.bytes = 0 ∧ s.ibuf.bytes.length ≠ 0 ∧
        mtype s.ibuf.bytes = 1 ∧ s.abuf.bytes.length = 22 := by
  refine ⟨?_, ⟨frameState 2 KeyFile.reset [], ?_⟩, ⟨frameState 2 keys11 ja, ?_⟩,
    ⟨{ frameState 0 keys10 du with abuf := jr }, ?_⟩,
    ⟨{ frameState 1 keys10 ja with abuf := shortFrame 0x00 22 }, ?_⟩⟩ <;>
  · unfold usable
    try unfold mtype
    decide +kernel

theorem witness_DeriveIsParseThenKdf :
    ∃ s : State, usable s.ver ∧ s.keys.appkey ≠ none ∧ (s.ver = some 2 → s.keys.nwkkey ≠ none) ∧
      s.abuf.bytes.length = 23 ∧ mtype s.abuf.bytes = 0 ∧ s.ibuf.bytes.length = 17 ∧
      mtype s.ibuf.bytes = 1 := by
  refine ⟨{ frameState 2 keys11 ja with abuf := jr }, ?_⟩
  unfold usable mtype
  decide +kernel

theorem witness_KstreamMakesOneBlock :
    (State.reset.cDir = none) ∧
      (∃ (ks : Slot) (s : State), s.cDir ≠ none ∧ s.cDevaddr ≠ none ∧ s.cFcnt32 ≠ none ∧
        s.cBlkidx ≠ none ∧ s.keys.get ks = none) ∧
      ∃ (ks : Slot) (s : State), s.cDir ≠ none ∧ s.cDevaddr ≠ none ∧ s.cFcnt32 ≠ none ∧
        s.cBlkidx = some 255 ∧ s.keys.get ks ≠ none :=
  ⟨rfl, ⟨.userkey, contextState 0, by decide⟩, ⟨.appskey, contextState 255, by decide +kernel⟩⟩

theorem witness_CryptXorsIbuf :
    (State.reset.cFcnt32 = none) ∧
      (∃ (ks : Slot) (s : State), s.cDir ≠ none ∧ s.cDevaddr ≠ none ∧ s.cFcnt32 ≠ none ∧
        s.keys.get ks = none) ∧
      ∃ (ks : Slot) (s : State), s.cDir ≠ none ∧ s.cDevaddr ≠ none ∧ s.cFcnt32 ≠ none ∧
        s.keys.get ks ≠ none ∧ s.ibuf.size = 17 :=
  ⟨rfl, ⟨.userkey, contextState 0, by decide⟩, ⟨.appskey, contextState 0, by decide +kernel⟩⟩

theorem witness_MicOfJoinRequests :
    (∃ s : State, usable s.ver ∧ (frame s).length = 23 ∧ mtype (frame s) = 0 ∧
        s.keys.get (rootOf s.ver) ≠ none) ∧
      ∃ s : State, usable s.ver ∧ (frame s).length = 23 ∧ mtype (frame s) = 0 ∧
        s.keys.get (rootOf s.ver) = none := by
  refine ⟨⟨frameState 0 keys10 jr, ?_⟩, ⟨frameState 2 keys10 jr, ?_⟩⟩ <;>
  · unfold usable frame mtype rootOf
    decide +kernel

theorem witness_MicOfJoinAccepts :
    (∃ s : State, usable s.ver ∧ (frame s).length = 33 ∧ mtype (frame s) = 1 ∧
        s.keys.get (rootOf s.ver) ≠ none) ∧
      ∃ s : State, usable s.ver ∧ (frame s).length = 17 ∧ mtype (frame s) = 1 ∧
        s.keys.get (rootOf s.ver) = none := by
  refine ⟨⟨frameState 2 keys11 ja33, ?_⟩, ⟨frameState 0 KeyFile.reset ja, ?_⟩⟩ <;>
  · unfold usable frame mtype rootOf
    decide +kernel

theorem witness_MicOfDataFrames :
    (∃ s : State, is10 s.ver ∧ isData (frame s) ∧ 12 + foptslen (frame s) ≤ (frame s).length ∧
        s.keys.nwkskey ≠ none) ∧
      ∃ s : State, is10 s.ver ∧ isData (frame s) ∧ 12 + foptslen (frame s) = (frame s).length ∧
        s.keys.nwkskey = none := by
  refine ⟨⟨frameState 0 keys10 du, ?_⟩, ⟨frameState 1 KeyFile.reset (shortFrame 0x60 12), ?_⟩⟩ <;>
  · unfold is10 isData frame mtype foptslen
    decide +kernel

theorem witness_MicOfDataFramesOfVersion11 :
    (∃ s : State, s.ver = some 2 ∧ isData (frame s) ∧ 12 + foptslen (frame s) ≤ (frame s).length ∧
        s.keys.fnwksintkey ≠ none ∧ s.keys.snwksintkey ≠ none) ∧
      ∃ s : State, s.ver = some 2 ∧ isData (frame s) ∧ 12 + foptslen (frame s) ≤ (frame s).length ∧
        s.keys.fnwksintkey = none := by
  refine ⟨⟨frameState 2 keys11 du, ?_⟩, ⟨frameState 2 keys10 du, ?_⟩⟩ <;>
  · unfold isData frame mtype foptslen
    decide +kernel

theorem witness_MicOfOtherFrames :
    (¬ usable (frameState 3 keys10 du).ver) ∧
      (∃ s : State, usable s.ver ∧ malformed (frame s)) ∧
      ∃ s : State, usable s.ver ∧ mtype (frame s) = 7 ∧ 12 ≤ (frame s).length := by
  refine ⟨?_, ⟨frameState 0 keys10 (shortFrame 0x40 11), ?_⟩,
    ⟨frameState 2 keys11 (shortFrame 0xe0 12), ?_⟩⟩ <;>
  · unfold usable
    try unfold malformed isData foptslen
    try unfold frame mtype
    decide +kernel

theorem witness_MicMismatchIsNotAnError :
    ∃ s t : State, exec .vmic s = .next t ∧ decide (t.mic.inframe ≠ none ∧ t.mic.ok = some 0) = true :=
  ⟨frameState 0 { KeyFile.reset with appkey := some Block.zero } jr,
    exists_next _ _ (by decide +kernel)⟩

theorem witness_DecodeExtendsParse :
    ∃ s : State, usable s.ver ∧ ¬ malformed (frame s) := by
  refine ⟨frameState 0 keys10 du, ?_⟩
  unfold usable malformed isData frame mtype foptslen
  decide +kernel

theorem witness_FrameCommandsNeedAVersionAndALayout :
    (¬ usable State.reset.ver) ∧ ∃ s : State, usable s.ver ∧ malformed (frame s) := by
  refine ⟨?_, ⟨frameState 0 keys10 (shortFrame 0x00 24), ?_⟩⟩ <;>
  · unfold usable
    try unfold malformed isData frame mtype foptslen
    decide +kernel

/-- VMIC without error; without the key of a Join-Request, of a Join-Accept and of a data frame; on a
malformed frame and without a version. -/
theorem witness_DecodeReportsTheMicOfVmic :
    (∃ s u : State, exec .vmic s = .next u ∧ decide (u.err = 0 ∧ u.mic.ok = some 1) = true) ∧
      (∃ s u : State, exec .vmic s = .next u ∧ decide (u.err = 7 ∧ mtype (frame s) = 0) = true) ∧
      (∃ s u : State, exec .vmic s = .next u ∧ decide (u.err = 7 ∧ mtype (frame s) = 1) = true) ∧
      (∃ s u : State, exec .vmic s = .next u ∧ decide (u.err = 7 ∧ mtype (frame s) = 2) = true) ∧
      (∃ s u : State, exec .vmic s = .next u ∧ decide (u.err = 2) = true) ∧
      ∃ s u : State, exec .vmic s = .next u ∧ decide (u.err = 6) = true :=
  ⟨⟨frameState 0 keys10 jr, exists_next _ _ (by decide +kernel)⟩,
    ⟨frameState 0 KeyFile.reset jr, exists_next _ _ (by decide +kernel)⟩,
    ⟨frameState 2 keys10 ja, exists_next _ _ (by decide +kernel)⟩,
    ⟨frameState 0 KeyFile.reset du, exists_next _ _ (by decide +kernel)⟩,
    ⟨frameState 0 keys10 (shortFrame 0x20 18), exists_next _ _ (by decide +kernel)⟩,
    ⟨State.reset, exists_next _ _ (by decide +kernel)⟩⟩

/-- An empty payload at both lengths, and one byte of payload with the key and without. -/
theorem witness_DecodeDecryptsThePayload :
    (∃ s : State, usable s.ver ∧ isData (frame s) ∧ 12 + foptslen (frame s) = (frame s).length) ∧
      (∃ s : State, usable s.ver ∧ isData (frame s) ∧ (frame s).length = 13 + foptslen (frame s)) ∧
      (∃ s : State, usable s.ver ∧ isData (frame s) ∧ (frame s).length = 14 + foptslen (frame s) ∧
        byteAt (frame s) 8 = 0 ∧ s.keys.get .nwkskey ≠ none) ∧
      ∃ s : State, usable s.ver ∧ isData (frame s) ∧ 13 + foptslen (frame s) < (frame s).length ∧
        byteAt (frame s) 8 ≠ 0 ∧ s.keys.get .appskey = none := by
  refine ⟨⟨frameState 0 keys10 (shortFrame 0x40 12), ?_⟩, ⟨frameState 0 keys10 (shortFrame 0x40 13), ?_⟩,
    ⟨frameState 0 keys10 (shortFrame 0x40 14), ?_⟩, ⟨frameState 2 keys11 du, ?_⟩⟩ <;>
  · unfold usable isData frame mtype foptslen
    decide +kernel

theorem witness_EveryCommandCompletesAndRecordsItsOutcome : (Instr.nop ≠ .clr) := by decide

theorem witness_CommandsRaiseOnlyTheirCodes :
    ∃ (i : Instr) (s t : State), exec i s = .next t ∧ decide (t.err = 6) = true :=
  ⟨.kdf, State.reset, exists_next _ _ (by decide)⟩

theorem witness_ErrorsClearExactlyTheCommandsResults :
    ∃ (i : Instr) (s t : State), exec i s = .next t ∧ decide (t.err ≠ 0) = true :=
  ⟨.cmic, { State.reset with mic := ⟨some 1, some 1, some 1⟩ }, exists_next _ _ (by decide)⟩

theorem witness_OperandsAndInputsAreNeverWritten :
    ∃ (i : Instr) (s t : State), exec i s = .next t ∧ decide (i ≠ .clr ∧ t.err = 0) = true :=
  ⟨.xbits false, spanState 0 4 8, exists_next _ _ (by decide +kernel)⟩

theorem witness_CommandsWriteOnlyWhatTheyOwn :
    ∃ (i : Instr) (s t : State), exec i s = .next t ∧
      decide (writesObuf i = false ∧ s.obuf.length = 2) = true :=
  ⟨.nop, { State.reset with obuf := buf 2 0x0203 }, exists_next _ _ (by decide)⟩

theorem witness_RootAndUserKeysAreNeverWritten :
    ∃ (i : Instr) (s t : State), exec i s = .next t ∧
      decide (i ≠ .clr ∧ t.err = 0 ∧ s.ver = some 2 ∧ s.keys.get .fnwksintkey ≠ none) = true :=
  ⟨.kdf, nonceState 2 keys11, exists_next _ _ (by decide +kernel)⟩

theorem witness_EveryCommandIsIdempotent :
    ∃ (i : Instr) (s t : State), exec i s = .next t ∧ decide (t ≠ s) = true :=
  ⟨.aesenc .appkey, State.reset, exists_next _ _ (by decide)⟩

theorem witness_TheVersionActsOnlyWhereItIsRead :
    ∃ (i : Instr) (s t : State), (i = .nop ∨ ∃ l, i = .xbits l) ∧ exec i s = .next t :=
  ⟨.xbits true, spanState 1 0 32, after (exec (.xbits true) (spanState 1 0 32)), .inr ⟨_, rfl⟩,
    (next_after _ (fun _ => true) (by decide)).1⟩

theorem witness_HostWriteStoresTheValue :
    (∃ (s : State) (r : RegName) (v : RegValue) (rest : List HostAction), s.inbox = HostAction.write r v :: rest ∧ r.hostWritable = true ∧
        v.fits r.shape = true) ∧
      ∃ (s : State) (rest : List HostAction), s.inbox = HostAction.write .ver (.num 3) :: rest ∧
        RegName.ver.hostWritable = true ∧ (RegValue.num 3).fits RegName.ver.shape = true :=
  ⟨⟨withAction (.write .blk (.bytes (zeros 16))), _, _, _, rfl, by decide, by decide⟩,
    ⟨withAction (.write .ver (.num 3)), _, rfl, by decide, by decide⟩⟩

theorem witness_HostLoadsKeysAndBuffers :
    (∃ (s : State) (rest : List HostAction) (b : List Byte) (slot : Slot),
        s.inbox = .writeKey slot.bits.toNat b :: rest ∧ b.length = 16) ∧
      (∃ (s : State) (rest : List HostAction) (b : List Byte),
        s.inbox = .load .ibuf b :: rest ∧ b.length = 256) ∧
      ∃ (s : State) (rest : List HostAction) (b : List Byte),
        s.inbox = .load .abuf b :: rest ∧ b.length = 0 :=
  ⟨⟨withAction (.writeKey 7 (zeros 16)), _, _, .userkey, rfl, rfl⟩,
    ⟨withAction (.load .ibuf (zeros 256)), _, _, rfl, by decide +kernel⟩,
    ⟨withAction (.load .abuf []), _, _, rfl, rfl⟩⟩

theorem witness_HostReadAnswersWithoutSideEffect :
    (∃ (s : State) (r : RegName) (rest : List HostAction) (v : RegValue), s.inbox = HostAction.read r :: rest ∧ s.register r = some v) ∧
      (∃ (s : State) (r : RegName) (rest : List HostAction), s.inbox = HostAction.read r :: rest ∧ s.register r = none ∧ r ≠ .cmd ∧
        ∀ b, r ≠ .buffer b) ∧
      ∃ (s : State) (rest : List HostAction) (b : Buf), s.inbox = HostAction.read (.buffer b) :: rest :=
  ⟨⟨withAction (.read .erracc), _, _, _, rfl, rfl⟩,
    ⟨withAction (.read (.key .appkey)), _, _, rfl, rfl, by decide, by simp⟩,
    ⟨withAction (.read (.buffer .obuf)), _, _, rfl⟩⟩

theorem witness_ResetEventRestoresTheResetState :
    ∃ (s : State) (rest : List HostAction), s.inbox = HostAction.reset :: rest ∧ s.keys ≠ KeyFile.reset :=
  ⟨{ frameState 0 zeroKey [] with inbox := [.reset] }, _, rfl, by decide⟩

theorem witness_StepStopsExactlyOnActionsThatDoNotExist :
    ∃ (s : State) (a : HostAction) (rest : List HostAction), s.inbox = a :: rest ∧ a.wellFormed = false :=
  ⟨withAction (.writeKey 8 (zeros 16)), _, _, rfl, by decide⟩

theorem witness_RunsOfExistingActionsComplete :
    ∃ s : State, s.actionsExist = true ∧ s.inbox.length = 2 :=
  ⟨{ State.reset with inbox := [.load .ibuf [1], .issue 0x00000020] }, by decide, rfl⟩

theorem witness_CryptIsUndoneByCrypt :
    ∃ (ks : Slot) (s t : State), exec (.crypt ks) s = .next t ∧
      decide (s.ibuf.wf = true ∧ t.err = 0 ∧ s.ibuf.size = 17) = true :=
  ⟨.appskey, contextState 0, exists_next _ _ (by decide +kernel)⟩

theorem witness_EveryStepKeepsInv :
    ∃ s t : State, step s = .next t ∧ decide (s.inv = true ∧ t.f.kind = some 1) = true :=
  ⟨{ frameState 0 KeyFile.reset jr with inbox := [.issue 0x00000030] },
    exists_next _ _ (by decide +kernel)⟩

theorem witness_OnlyCmicCanLeaveAStaleVerdict :
    ∃ (i : Instr) (s t : State), exec i s = .next t ∧
      decide (i ≠ .cmic ∧ s.verdictCoherent = true ∧ t.err = 6) = true :=
  ⟨.vmic, State.reset, exists_next _ _ (by decide)⟩

theorem witness_CmacChainsBlocks :
    (∃ last : List Byte, 0 < last.length ∧ last.length = 16) ∧
      ∃ last : List Byte, 0 < last.length ∧ last.length = 1 :=
  ⟨⟨zeros 16, by decide⟩, ⟨[0], by decide⟩⟩

theorem witness_ExtractBitsDependsOnTheStart :
    ∃ (b : List Byte) (a o w v : Nat), extractBits b a o w = some v :=
  ⟨[0x40, 0x34], 0, 4, 8, 3, by decide⟩

theorem witness_LittleEndianExtractionReverses :
    (∃ (b : List Byte) (a n : Nat), a + n = b.length) ∧
      ∃ (b : List Byte) (a n : Nat), b.length + 1 = a + n :=
  ⟨⟨[1, 2, 3], 1, 2, rfl⟩, ⟨[1, 2, 3], 2, 2, rfl⟩⟩

theorem witness_BitFieldsAreExtractions :
    ∃ (f : List Byte) (b hi lo : Nat), b < f.length ∧ lo ≤ hi ∧ hi = 7 :=
  ⟨[0x40], 0, 7, 5, by decide, by decide, rfl⟩

theorem witness_LittleEndianRoundTrips : ∃ n v : Nat, v + 1 = 256 ^ n := ⟨2, 65535, by decide⟩

end Sys2Proof.Tests
end

/-! # The family `10_state.md`: what commands and host actions do to the state

Every command is one write to the block and one outcome in `ERR`. `report` names the two, `exec_eq` ties it
to `exec`, and the statements about all commands follow from the few kinds of write. -/

section
namespace Sys2Proof.Machine

open Sys2Proof.Stated

/-! ## What a command writes and how it ends -/

/-- What a command writes besides the status registers. -/
inductive Write where
  | nothing
  | reset
  | oblk (v : Option Block)
  | xVal (v : Option (BitVec 64))
  | obuf (b : List Byte)
  | parsed (f : Fields) (b : List Byte)
  | decoded (f : Fields) (b : List Byte) (m : MicRegs)
  | keys (k : SessionKeys)
  | micDerived (v : Option (BitVec 32))
  | mic (m : MicRegs)

/-- The state with a write done. -/
def Write.apply (s : State) : Write → State
  | .nothing => s
  | .reset => s.clear
  | .oblk v => s.setOblk v
  | .xVal v => s.setXVal v
  | .obuf b => s.setObuf b
  | .parsed f b => (s.setFields f).setObuf b
  | .decoded f b m => ((s.setFields f).setObuf b).setMic m
  | .keys k => s.setKeys (s.keys.install k)
  | .micDerived v => s.setMicDerived v
  | .mic m => s.setMic m

/-- How a command ends: without error, or with a code (R210). -/
def State.conclude (s : State) : Option ErrCode → State
  | none => s.succeed
  | some e => s.raise e

/-- The whole effect of a command: its write and its outcome. -/
structure Report where
  write : Write
  error : Option ErrCode

/-- The state that a report leaves. -/
def Report.apply (r : Report) (s : State) : State := (r.write.apply s).conclude r.error

/-- The report of a command that computes one result: deliver it, or make the write that clears. -/
def Report.of {α : Type} (result : Except ErrCode α) (deliver : α → Write) (clear : Write) : Report :=
  match result with
  | .ok x => ⟨deliver x, none⟩
  | .error e => ⟨clear, some e⟩

/-- The report of PARSE (R133). -/
def parseReport (s : State) : Report :=
  match verOperand s with
  | .error e => ⟨.parsed Fields.empty [], some e⟩
  | .ok ver =>
    match parseInput ver s with
    | .malformed m => ⟨.parsed (Fields.malformed m) [], some .malformedFrame⟩
    | .frame m b => ⟨.parsed (Fields.ofFrame m b) b.output, none⟩

/-- The report of DECODE (R200). -/
def decodeReport (s : State) : Report :=
  match verOperand s with
  | .error e => ⟨.decoded Fields.empty [] MicRegs.empty, some e⟩
  | .ok ver =>
    match parseInput ver s with
    | .malformed m => ⟨.decoded (Fields.malformed m) [] MicRegs.empty, some .malformedFrame⟩
    | .frame m b =>
      let out := decodedOf ver s.keys s.ibuf.bytes m b
      ⟨.decoded out.1 out.2
        (micRegs (micInFrame s.ibuf.bytes b) (derivedMic ver s.keys s.ibuf.bytes b)), none⟩

/-- The report of each command. -/
def report : Instr → State → Report
  | .nop, _ => ⟨.nothing, none⟩
  | .clr, _ => ⟨.reset, none⟩
  | .aesenc ks, s => .of (aesencResult ks s) (fun b => .oblk (some b)) (.oblk none)
  | .cmac ks, s => .of (cmacResult ks s) (fun b => .oblk (some b)) (.oblk none)
  | .xbits le, s => .of (xbitsResult le s) (fun v => .xVal (some v)) (.xVal none)
  | .parse, s => parseReport s
  | .decode, s => decodeReport s
  | .kdf, s => .of (kdfResult s) .keys .nothing
  | .derive, s => .of (deriveResult s) .keys .nothing
  | .kstream ks, s => .of (kstreamResult ks s) (fun b => .oblk (some b)) (.oblk none)
  | .crypt ks, s => .of (cryptResult ks s) .obuf (.obuf [])
  | .cmic, s => .of (micResult s) (fun m => .micDerived m.derived) (.micDerived none)
  | .vmic, s => .of (micResult s) .mic (.mic MicRegs.empty)

theorem Report.of_ok {α : Type} {x : Except ErrCode α} {a : α} (h : x = .ok a) (d : α → Write)
    (c : Write) : Report.of x d c = ⟨d a, none⟩ := by rw [h]; rfl

theorem Report.of_error {α : Type} {x : Except ErrCode α} {e : ErrCode} (h : x = .error e)
    (d : α → Write) (c : Write) : Report.of x d c = ⟨c, some e⟩ := by rw [h]; rfl

/-- PARSE and DECODE end in one of three ways; one lemma for both. -/
theorem parse_outcomes (s : State) :
    (∃ e, verOperand s = .error e ∧ parseReport s = ⟨.parsed Fields.empty [], some e⟩ ∧
        decodeReport s = ⟨.decoded Fields.empty [] MicRegs.empty, some e⟩) ∨
      (∃ m, parseReport s = ⟨.parsed (Fields.malformed m) [], some .malformedFrame⟩ ∧
        decodeReport s =
          ⟨.decoded (Fields.malformed m) [] MicRegs.empty, some .malformedFrame⟩) ∨
      (∃ ver m b, parseInput ver s = .frame m b ∧
        parseReport s = ⟨.parsed (Fields.ofFrame m b) b.output, none⟩ ∧
        decodeReport s = ⟨.decoded (decodedOf ver s.keys s.ibuf.bytes m b).1
          (decodedOf ver s.keys s.ibuf.bytes m b).2
          (micRegs (micInFrame s.ibuf.bytes b) (derivedMic ver s.keys s.ibuf.bytes b)), none⟩) := by
  unfold parseReport decodeReport
  cases verOperand s with
  | error e => exact .inl ⟨e, rfl, rfl, rfl⟩
  | ok ver =>
    cases hp : parseInput ver s with
    | malformed m => exact .inr (.inl ⟨m, by simp only [hp], by simp only [hp]⟩)
    | frame m b => exact .inr (.inr ⟨ver, m, b, hp, by simp only [hp], by simp only [hp]⟩)

theorem execParse_eq (s : State) : execParse s = .next ((parseReport s).apply s) := by
  unfold execParse parseReport
  cases verOperand s with
  | error e => rfl
  | ok ver => dsimp only; cases parseInput ver s <;> rfl

theorem execDecode_eq (s : State) : execDecode s = .next ((decodeReport s).apply s) := by
  unfold execDecode decodeReport
  cases verOperand s with
  | error e => rfl
  | ok ver => dsimp only; cases parseInput ver s <;> rfl

/-- The meaning of a command that computes one result, from its two ways of ending. -/
theorem next_of_ways {α : Type} {x : Except ErrCode α} {o : Host.Outcome State Fault Refusal}
    {d : α → Write} {c : Write} {s : State}
    (h : (∃ a, x = .ok a ∧ o = .next ((d a).apply s).succeed) ∨
      (∃ e, x = .error e ∧ o = .next ((c.apply s).raise e))) :
    o = .next ((Report.of x d c).apply s) := by
  obtain ⟨a, hx, ho⟩ | ⟨e, hx, ho⟩ := h
  · rw [Report.of_ok hx, ho]; rfl
  · rw [Report.of_error hx, ho]; rfl

/-- Every command completes, with the state its report leaves. -/
theorem exec_eq (i : Instr) (s : State) : exec i s = .next ((report i s).apply s) := by
  cases i with
  | nop => rfl
  | clr => rfl
  | aesenc ks => exact next_of_ways (execAesenc_cases ks s)
  | cmac ks => exact next_of_ways (execCmac_cases ks s)
  | xbits le => exact next_of_ways (execXbits_cases le s)
  | parse => exact execParse_eq s
  | decode => exact execDecode_eq s
  | kdf => exact next_of_ways (execKdf_cases s)
  | derive => exact next_of_ways (execDerive_cases s)
  | kstream ks => exact next_of_ways (execKstream_cases ks s)
  | crypt ks => exact next_of_ways (execCrypt_cases ks s)
  | cmic => exact next_of_ways (execCmic_cases s)
  | vmic => exact next_of_ways (execVmic_cases s)

/-- A command's next state is the one its report leaves. -/
theorem exec_next {i : Instr} {s t : State} (h : exec i s = .next t) : t = (report i s).apply s := by
  rw [exec_eq] at h
  exact (Host.Outcome.next.inj h).symm

/-- Which writes a command can make: the columns "written by" of R15 to R23. -/
inductive Writes : Instr → Write → Prop where
  | nop : Writes .nop .nothing
  | clr : Writes .clr .reset
  | aesenc (ks v) : Writes (.aesenc ks) (.oblk v)
  | cmac (ks v) : Writes (.cmac ks) (.oblk v)
  | xbits (le v) : Writes (.xbits le) (.xVal v)
  | parse (f b) : Writes .parse (.parsed f b)
  | decode (f b m) : Writes .decode (.decoded f b m)
  | kdf (k) : Writes .kdf (.keys k)
  | kdfError : Writes .kdf .nothing
  | derive (k) : Writes .derive (.keys k)
  | deriveError : Writes .derive .nothing
  | kstream (ks v) : Writes (.kstream ks) (.oblk v)
  | crypt (ks b) : Writes (.crypt ks) (.obuf b)
  | cmic (v) : Writes .cmic (.micDerived v)
  | vmic (m) : Writes .vmic (.mic m)

/-- A property of both the delivered and the clearing write holds of the write that is made. -/
theorem Report.of_write {α : Type} (P : Write → Prop) {x : Except ErrCode α} {d : α → Write}
    {c : Write} (hd : ∀ a, x = .ok a → P (d a)) (hc : P c) : P (Report.of x d c).write := by
  cases x with
  | ok a => exact hd a rfl
  | error e => exact hc

/-- A command makes only the writes it owns. -/
theorem report_writes (i : Instr) (s : State) : Writes i (report i s).write := by
  cases i with
  | nop => exact .nop
  | clr => exact .clr
  | aesenc ks => exact Report.of_write (Writes _) (fun _ _ => .aesenc ks _) (.aesenc ks _)
  | cmac ks => exact Report.of_write (Writes _) (fun _ _ => .cmac ks _) (.cmac ks _)
  | xbits le => exact Report.of_write (Writes _) (fun _ _ => .xbits le _) (.xbits le _)
  | parse =>
    obtain ⟨e, -, h, -⟩ | ⟨m, h, -⟩ | ⟨ver, m, b, -, h, -⟩ := parse_outcomes s <;>
      simp only [report, h] <;> constructor
  | decode =>
    obtain ⟨e, -, -, h⟩ | ⟨m, -, h⟩ | ⟨ver, m, b, -, -, h⟩ := parse_outcomes s <;>
      simp only [report, h] <;> constructor
  | kdf => exact Report.of_write (Writes _) (fun _ _ => .kdf _) .kdfError
  | derive => exact Report.of_write (Writes _) (fun _ _ => .derive _) .deriveError
  | kstream ks => exact Report.of_write (Writes _) (fun _ _ => .kstream ks _) (.kstream ks _)
  | crypt ks => exact Report.of_write (Writes _) (fun _ _ => .crypt ks _) (.crypt ks _)
  | cmic => exact Report.of_write (Writes _) (fun _ _ => .cmic _) (.cmic _)
  | vmic => exact Report.of_write (Writes _) (fun _ _ => .vmic _) (.vmic _)

/-- Only CLR resets. -/
theorem report_write_ne_reset {i : Instr} (hi : i ≠ .clr) (s : State) :
    (report i s).write ≠ .reset := by
  have h := report_writes i s
  intro hw
  rw [hw] at h
  cases h
  exact hi rfl

/-! ## What ending a command leaves alone -/

section
variable (s : State) (e : Option ErrCode)
@[simp] theorem State.conclude_keys : (s.conclude e).keys = s.keys := by cases e <;> rfl
@[simp] theorem State.conclude_obuf : (s.conclude e).obuf = s.obuf := by cases e <;> rfl
@[simp] theorem State.conclude_oblk : (s.conclude e).oblk = s.oblk := by cases e <;> rfl
@[simp] theorem State.conclude_xVal : (s.conclude e).xVal = s.xVal := by cases e <;> rfl
@[simp] theorem State.conclude_f : (s.conclude e).f = s.f := by cases e <;> rfl
@[simp] theorem State.conclude_mic : (s.conclude e).mic = s.mic := by cases e <;> rfl
@[simp] theorem State.conclude_inbox : (s.conclude e).inbox = s.inbox := by cases e <;> rfl
@[simp] theorem State.conclude_outbox : (s.conclude e).outbox = s.outbox := by cases e <;> rfl
@[simp] theorem State.conclude_draws : (s.conclude e).draws = s.draws := by cases e <;> rfl
end

/-- `ERR` after a command depends on its outcome alone. -/
theorem State.conclude_err_congr (s t : State) (e : Option ErrCode) :
    (s.conclude e).err = (t.conclude e).err := by cases e <;> rfl

/-- Ending a command touches no operand. -/
theorem sameOperands_conclude {s t : State} (h : sameOperands s t) (e : Option ErrCode) :
    sameOperands s (t.conclude e) := by
  cases e <;> exact h

theorem conclude_sameOperands {s t : State} (h : sameOperands s t) (e : Option ErrCode) :
    sameOperands (s.conclude e) t := by
  cases e <;> exact h

theorem sameOperands_refl (s : State) : sameOperands s s := by simp [sameOperands]

/-- The host's list, its answers and the draws belong to no command. -/
theorem Write.apply_hostFields (w : Write) (s : State) :
    (w.apply s).inbox = s.inbox ∧ (w.apply s).outbox = s.outbox ∧ (w.apply s).draws = s.draws := by
  cases w <;> exact ⟨rfl, rfl, rfl⟩

/-- A command leaves the host's list alone. -/
theorem Report.apply_inbox (r : Report) (s : State) : (r.apply s).inbox = s.inbox := by
  rw [Report.apply, State.conclude_inbox]
  exact (r.write.apply_hostFields s).1

/-! ## O35, O36, O37: what commands do not write -/

/-- No write but reset touches an operand. -/
theorem Write.apply_sameOperands {w : Write} (hw : w ≠ .reset) (s : State) :
    sameOperands s (w.apply s) := by
  cases w with
  | reset => exact absurd rfl hw
  | _ => exact sameOperands_refl s

/-- Settles O35: only the write of CLR, a reset, reaches an operand. -/
theorem operandsAndInputsAreNeverWritten : Obligations.OperandsAndInputsAreNeverWritten := by
  intro i s t h hi
  rw [exec_next h]
  exact sameOperands_conclude (Write.apply_sameOperands (report_write_ne_reset hi s) s) _

/-- A write leaves every result alone that its command does not own. -/
theorem Writes.frame {i : Instr} {w : Write} (h : Writes i w) (s : State) :
    (writesOblk i = false → (w.apply s).oblk = s.oblk) ∧
    (writesXVal i = false → (w.apply s).xVal = s.xVal) ∧
    (writesFields i = false → (w.apply s).f = s.f) ∧
    (writesObuf i = false → (w.apply s).obuf = s.obuf) ∧
    (writesVerdict i = false →
      (w.apply s).mic.inframe = s.mic.inframe ∧ (w.apply s).mic.ok = s.mic.ok) ∧
    (writesDerived i = false → (w.apply s).mic.derived = s.mic.derived) ∧
    (writesKeys i = false → (w.apply s).keys = s.keys) := by
  cases h <;> simp [Write.apply, writesOblk, writesXVal, writesFields, writesObuf, writesVerdict,
    writesDerived, writesKeys]

/-- Settles O36, by the kinds of write that a command owns. -/
theorem commandsWriteOnlyWhatTheyOwn : Obligations.CommandsWriteOnlyWhatTheyOwn := by
  intro i s t h
  obtain ⟨hoblk, hxval, hf, hobuf, hverdict, hderived, hkeys⟩ := (report_writes i s).frame s
  obtain ⟨hin, hout, hdraws⟩ := (report i s).write.apply_hostFields s
  rw [exec_next h]
  simp only [Report.apply, State.conclude_oblk, State.conclude_xVal, State.conclude_f,
    State.conclude_obuf, State.conclude_mic, State.conclude_keys, State.conclude_inbox,
    State.conclude_outbox, State.conclude_draws]
  refine ⟨hoblk, hxval, hf, fun hw => ?_, hverdict, hderived, hkeys, hin, hout, hdraws⟩
  rw [hobuf hw]
  exact ⟨rfl, fun _ => rfl⟩

/-- The session keys are those of version 1.1. -/
def SessionKeys.is11 : SessionKeys → Bool
  | .v10 .. => false
  | .v11 .. => true

/-- Installing session keys writes slots 2 and 3 (version 1.0.x) or 3 to 6 (version 1.1). -/
theorem KeyFile.install_frame (k : KeyFile) (new : SessionKeys) :
    (k.install new).appkey = k.appkey ∧ (k.install new).nwkkey = k.nwkkey ∧
      (k.install new).userkey = k.userkey ∧
      (new.is11 = true → (k.install new).nwkskey = k.nwkskey) ∧
      (new.is11 = false → (k.install new).fnwksintkey = k.fnwksintkey ∧
        (k.install new).snwksintkey = k.snwksintkey ∧
        (k.install new).nwksenckey = k.nwksenckey) := by
  cases new <;> simp [KeyFile.install, KeyFile.set, SessionKeys.is11]

/-- Writing a slot invalidates none. -/
theorem KeyFile.set_keeps_valid {k : KeyFile} {t : Slot} (h : k.get t ≠ none) (s : Slot) (b : Block) :
    (k.set s b).get t ≠ none := by
  rw [KeyFile.get_set]
  split
  · simp
  · exact h

/-- A derivation invalidates no slot. -/
theorem KeyFile.install_keeps_valid {k : KeyFile} {t : Slot} (h : k.get t ≠ none) (new : SessionKeys) :
    (k.install new).get t ≠ none := by
  cases new with
  | v10 nwk app => exact set_keeps_valid (set_keeps_valid h _ _) _ _
  | v11 fnwk app snwk enc =>
    exact set_keeps_valid (set_keeps_valid (set_keeps_valid (set_keeps_valid h _ _) _ _) _ _) _ _

/-- A sequence of two computations answers only when both do. -/
theorem bind_eq_ok {α β : Type} {x : Except ErrCode α} {f : α → Except ErrCode β} {b : β}
    (h : x >>= f = .ok b) : ∃ a, x = .ok a ∧ f a = .ok b := by
  cases x with
  | ok a => exact ⟨a, rfl, h⟩
  | error e => cases h

/-- The root keys are those of version 1.1. -/
def RootKeys.is11 : RootKeys → Bool
  | .v10 _ => false
  | .v11 .. => true

/-- The version operand is 1.1 exactly when `VER` holds 2. -/
theorem verOperand_is11 {s : State} {ver : Version} (h : verOperand s = .ok ver) :
    ver = .v11 ↔ s.ver = some 2 := by
  obtain ⟨v, hv, ho⟩ | ⟨-, ho⟩ := operand_cases (s.ver.bind versionOf)
  · rw [verOperand, ho] at h
    cases h
    obtain ⟨n, hn, hver⟩ := Option.bind_eq_some_iff.mp hv
    rw [hn]
    unfold versionOf at hver
    split_ifs at hver <;> cases hver <;> simp_all
  · rw [verOperand, ho] at h
    cases h

theorem rootKeys_is11 {ver : Version} {k : KeyFile} {root : RootKeys} (h : rootKeys ver k = .ok root) :
    root.is11 = true ↔ ver = .v11 := by
  cases ver with
  | v10 | v103 =>
    obtain ⟨a, -, h⟩ := bind_eq_ok h
    cases h
    simp [RootKeys.is11]
  | v11 =>
    obtain ⟨a, -, h⟩ := bind_eq_ok h
    obtain ⟨n, -, h⟩ := bind_eq_ok h
    cases h
    simp [RootKeys.is11]

@[simp] theorem sessionKeys_is11 (root : RootKeys) (n i : BitVec 24) (j : BitVec 64) (d : BitVec 16) :
    (sessionKeys root n i j d).is11 = root.is11 := by
  cases root <;> rfl

/-- KDF makes keys of version 1.1 exactly when `VER` holds 2 (R153). -/
theorem kdfResult_is11 {s : State} {k : SessionKeys} (h : kdfResult s = .ok k) :
    k.is11 = true ↔ s.ver = some 2 := by
  obtain ⟨ver, hver, h⟩ := bind_eq_ok h
  obtain ⟨n, -, h⟩ := bind_eq_ok h
  obtain ⟨root, hroot, h⟩ := bind_eq_ok h
  cases h
  rw [sessionKeys_is11, rootKeys_is11 hroot, verOperand_is11 hver]

/-- DERIVE makes keys of version 1.1 exactly when `VER` holds 2 (R154). -/
theorem deriveResult_is11 {s : State} {k : SessionKeys} (h : deriveResult s = .ok k) :
    k.is11 = true ↔ s.ver = some 2 := by
  obtain ⟨ver, hver, h⟩ := bind_eq_ok h
  obtain ⟨root, hroot, h⟩ := bind_eq_ok h
  split at h
  · cases h
  split at h
  · cases h
  cases h
  rw [pairKeys, sessionKeys_is11, rootKeys_is11 hroot, verOperand_is11 hver]

/-- A write of key slots is a derivation for the version in `VER`. -/
theorem report_keys_is11 {i : Instr} {s : State} {k : SessionKeys} (h : (report i s).write = .keys k) :
    k.is11 = true ↔ s.ver = some 2 := by
  have hw := report_writes i s
  rw [h] at hw
  cases hw with
  | kdf =>
    cases hr : kdfResult s <;> simp only [report, hr, Report.of] at h <;> cases h
    exact kdfResult_is11 hr
  | derive =>
    cases hr : deriveResult s <;> simp only [report, hr, Report.of] at h <;> cases h
    exact deriveResult_is11 hr

/-- A write that is neither a reset nor a derivation leaves the key file alone. -/
theorem Write.apply_keys (w : Write) (s : State) :
    w = .reset ∨ (∃ k, w = .keys k) ∨ (w.apply s).keys = s.keys := by
  cases w <;> simp [Write.apply]

/-- Settles O37: only derivations write key slots, and they write those of their version. -/
theorem rootAndUserKeysAreNeverWritten : Obligations.RootAndUserKeysAreNeverWritten := by
  intro i s t h hi
  rw [exec_next h, Report.apply, State.conclude_keys]
  obtain hw | ⟨k, hw⟩ | hw := (report i s).write.apply_keys s
  · exact absurd hw (report_write_ne_reset hi s)
  · obtain ⟨h0, h1, h7, h2, h456⟩ := s.keys.install_frame k
    have h11 := report_keys_is11 hw
    rw [hw]
    refine ⟨h0, h1, h7, fun hv => h2 (h11.mpr hv), fun hv => h456 ?_, fun slot hs => ?_⟩
    · exact Bool.eq_false_iff.mpr (fun hk => hv (h11.mp hk))
    · exact KeyFile.install_keeps_valid hs k
  · rw [hw]
    exact ⟨rfl, rfl, rfl, fun _ => rfl, fun _ => ⟨rfl, rfl, rfl⟩, fun _ hs => hs⟩

/-! ## O39, O40: what a command reads -/

/-- No command reads a result register, `OBUF` or a status register (R27). -/
theorem report_withResultsOf (i : Instr) (s r : State) :
    report i (withResultsOf s r) = report i s := by
  cases i <;> rfl

/-- One write to two states that differ in results alone: the same operands and keys, and the same
values in everything it writes. -/
theorem Writes.same_results {i : Instr} {w : Write} (h : Writes i w) (s r : State) :
    (w.apply (withResultsOf s r)).keys = (w.apply s).keys ∧
    sameOperands (w.apply s) (w.apply (withResultsOf s r)) ∧
    (writesOblk i = true → (w.apply (withResultsOf s r)).oblk = (w.apply s).oblk) ∧
    (writesXVal i = true → (w.apply (withResultsOf s r)).xVal = (w.apply s).xVal) ∧
    (writesFields i = true → (w.apply (withResultsOf s r)).f = (w.apply s).f) ∧
    (writesObuf i = true → (w.apply (withResultsOf s r)).obuf = (w.apply s).obuf) ∧
    (writesVerdict i = true → (w.apply (withResultsOf s r)).mic = (w.apply s).mic) ∧
    (writesDerived i = true →
      (w.apply (withResultsOf s r)).mic.derived = (w.apply s).mic.derived) := by
  refine ⟨?_, ?_, ?_⟩
  · cases h <;> rfl
  · cases h <;> exact sameOperands_refl _
  · cases h <;> simp [Write.apply, withResultsOf, writesOblk, writesXVal, writesFields, writesObuf,
      writesVerdict, writesDerived]

/-- Settles O39: the report is the same at both states, and one write delivers the same at both. -/
theorem resultsNeverFeedBack : Obligations.ResultsNeverFeedBack := by
  intro i s r
  refine ⟨_, _, exec_eq i s, exec_eq i _, ?_⟩
  rw [report_withResultsOf]
  obtain ⟨hkeys, hop, hres⟩ := (report_writes i s).same_results s r
  refine ⟨State.conclude_err_congr _ _ _, ?_, ?_, ?_⟩
  · simpa only [Report.apply, State.conclude_keys] using hkeys
  · exact conclude_sameOperands (sameOperands_conclude hop _) _
  · simpa only [Report.apply, State.conclude_oblk, State.conclude_xVal, State.conclude_f,
      State.conclude_obuf, State.conclude_mic] using hres

/-- The state with `VER` set. -/
def State.withVer (s : State) (v : Option (BitVec 2)) : State := { s with ver := v }

/-- Versions 1.0 and 1.0.3 give every command the same report (R14): each function of the version has one
arm for the two. -/
theorem report_ver01 (i : Instr) (s : State) :
    report i (s.withVer (some 0)) = report i (s.withVer (some 1)) := by
  cases i <;> rfl

/-- What a report leaves differs only in `VER` when the states before differ only in `VER`. -/
theorem Report.apply_ver_irrelevant (r : Report) (s : State) (v w : Option (BitVec 2)) :
    (r.apply (s.withVer v)).withVer none = (r.apply (s.withVer w)).withVer none := by
  obtain ⟨write, error⟩ := r
  cases write <;> cases error <;> rfl

/-- Every report but that of CLR keeps `VER`, and does the same whatever it holds. -/
theorem Report.apply_withVer {r : Report} (hr : r.write ≠ .reset) (s : State) (v : Option (BitVec 2)) :
    r.apply (s.withVer v) = (r.apply s).withVer v := by
  obtain ⟨write, error⟩ := r
  cases write with
  | reset => exact absurd rfl hr
  | _ => cases error <;> rfl

/-- The commands that do not read `VER`. -/
inductive Versionless : Instr → Prop where
  | nop : Versionless .nop
  | aesenc (ks) : Versionless (.aesenc ks)
  | cmac (ks) : Versionless (.cmac ks)
  | xbits (le) : Versionless (.xbits le)
  | kstream (ks) : Versionless (.kstream ks)
  | crypt (ks) : Versionless (.crypt ks)

theorem Versionless.of_cases {i : Instr}
    (h : i = .nop ∨ (∃ k, i = .aesenc k) ∨ (∃ k, i = .cmac k) ∨ (∃ l, i = .xbits l) ∨
      (∃ k, i = .kstream k) ∨ (∃ k, i = .crypt k)) : Versionless i := by
  obtain rfl | ⟨k, rfl⟩ | ⟨k, rfl⟩ | ⟨l, rfl⟩ | ⟨k, rfl⟩ | ⟨k, rfl⟩ := h <;> constructor

theorem Versionless.ne_clr {i : Instr} (h : Versionless i) : i ≠ .clr := by
  rintro rfl
  cases h

/-- The report of a command that does not read `VER`. -/
theorem Versionless.report_withVer {i : Instr} (h : Versionless i) (s : State)
    (v : Option (BitVec 2)) : report i (s.withVer v) = report i s := by
  cases h <;> rfl

/-- Settles O40: equal reports at states that differ in `VER` alone. -/
theorem theVersionActsOnlyWhereItIsRead : Obligations.TheVersionActsOnlyWhereItIsRead := by
  refine ⟨fun i s => ⟨_, _, exec_eq i (s.withVer (some 0)), exec_eq i (s.withVer (some 1)), ?_⟩, ?_⟩
  · rw [report_ver01]
    exact Report.apply_ver_irrelevant _ s _ _
  · intro i s t v hi h
    have hi := Versionless.of_cases hi
    have hw := Report.apply_withVer (report_write_ne_reset hi.ne_clr s) s v
    rw [exec_next h]
    calc exec i (s.withVer v)
        = .next ((report i (s.withVer v)).apply (s.withVer v)) := exec_eq i _
      _ = .next (((report i s).apply s).withVer v) := by rw [hi.report_withVer, hw]

/-! ## Which errors a computation raises -/

/-- Every error of a computation is one of a list. -/
def RaisesOnly {α : Type} (l : List ErrCode) (x : Except ErrCode α) : Prop :=
  ∀ e, x = .error e → e ∈ l

theorem raisesOnly_ok {α : Type} {l : List ErrCode} (a : α) : RaisesOnly l (.ok a) :=
  fun _ h => nomatch h

theorem raisesOnly_error {α : Type} {l : List ErrCode} {e : ErrCode} (h : e ∈ l) :
    RaisesOnly l (.error e : Except ErrCode α) := fun _ he => Except.error.inj he ▸ h

theorem RaisesOnly.bind {α β : Type} {l : List ErrCode} {x : Except ErrCode α}
    {f : α → Except ErrCode β} (hx : RaisesOnly l x) (hf : ∀ a, RaisesOnly l (f a)) :
    RaisesOnly l (x >>= f) := by
  cases x with
  | ok a => exact hf a
  | error e => exact fun _ he => hx _ (by cases he; rfl)

theorem operand_raises {α : Type} {l : List ErrCode} (r : Option α) (h : .illegalOperand ∈ l) :
    RaisesOnly l (operand r) := by
  cases r with
  | none => exact raisesOnly_error h
  | some v => exact raisesOnly_ok v

theorem keyOperand_raises {l : List ErrCode} (k : KeyFile) (s : Slot) (h : .keyUnavailable ∈ l) :
    RaisesOnly l (keyOperand k s) := by
  unfold keyOperand
  cases k.get s with
  | none => exact raisesOnly_error h
  | some v => exact raisesOnly_ok v

theorem rootKeys_raises {l : List ErrCode} (ver : Version) (k : KeyFile)
    (h : .keyUnavailable ∈ l) : RaisesOnly l (rootKeys ver k) :=
  fun _ he => rootKeys_error he ▸ h

theorem contextOperand_raises {l : List ErrCode} (s : State) (h : .illegalOperand ∈ l) :
    RaisesOnly l (contextOperand s) :=
  (operand_raises _ h).bind fun _ => (operand_raises _ h).bind fun _ =>
    (operand_raises _ h).bind fun _ => raisesOnly_ok _

theorem nonceOperand_raises {l : List ErrCode} (s : State) (h : .illegalOperand ∈ l) :
    RaisesOnly l (nonceOperand s) :=
  (operand_raises _ h).bind fun _ => (operand_raises _ h).bind fun _ =>
    (operand_raises _ h).bind fun _ => raisesOnly_ok _

theorem spanOperand_raises {l : List ErrCode} (le : Bool) (s : State) (h : .illegalOperand ∈ l) :
    RaisesOnly l (spanOperand le s) := by
  refine (operand_raises _ h).bind fun a => (operand_raises _ h).bind fun b =>
    (operand_raises _ h).bind fun w => ?_
  split
  · exact raisesOnly_error h
  · split
    · exact raisesOnly_error h
    · exact raisesOnly_ok _

theorem spanValue_raises {l : List ErrCode} (le : Bool) (b : List Byte) (x : Span)
    (h : .rangeError ∈ l) : RaisesOnly l (spanValue le b x) := by
  unfold spanValue
  split
  · exact raisesOnly_ok _
  · exact raisesOnly_error h

theorem dataMic_raises {l : List ErrCode} (ver : Version) (k : KeyFile) (frame : List Byte)
    (d : DataFrame) (h : .keyUnavailable ∈ l) : RaisesOnly l (dataMic ver k frame d) := by
  cases ver with
  | v10 | v103 => exact (keyOperand_raises _ _ h).bind fun _ => raisesOnly_ok _
  | v11 =>
    exact (keyOperand_raises _ _ h).bind fun _ => (keyOperand_raises _ _ h).bind fun _ =>
      raisesOnly_ok _

theorem micOfFrame_raises {l : List ErrCode} (ver : Version) (k : KeyFile) (frame : List Byte)
    (b : Body) (h : .keyUnavailable ∈ l) : RaisesOnly l (micOfFrame ver k frame b) := by
  cases b with
  | joinRequest j | joinAccept j => exact (keyOperand_raises _ _ h).bind fun _ => raisesOnly_ok _
  | joinAcceptEnc c => exact raisesOnly_error h
  | data d => exact (dataMic_raises _ _ _ _ h).bind fun _ => raisesOnly_ok _
  | unstructured => exact raisesOnly_ok _

theorem aesencResult_raises (ks : Slot) (s : State) :
    RaisesOnly [.illegalOperand, .keyUnavailable] (aesencResult ks s) :=
  (operand_raises _ (by decide)).bind fun _ => (keyOperand_raises _ _ (by decide)).bind fun _ =>
    raisesOnly_ok _

theorem cmacResult_raises (ks : Slot) (s : State) :
    RaisesOnly [.keyUnavailable] (cmacResult ks s) :=
  (keyOperand_raises _ _ (by decide)).bind fun _ => raisesOnly_ok _

theorem xbitsResult_raises (le : Bool) (s : State) :
    RaisesOnly [.rangeError, .illegalOperand] (xbitsResult le s) :=
  (spanOperand_raises _ _ (by decide)).bind fun _ =>
    (spanValue_raises _ _ _ (by decide)).bind fun _ => raisesOnly_ok _

theorem kstreamResult_raises (ks : Slot) (s : State) :
    RaisesOnly [.illegalOperand, .keyUnavailable] (kstreamResult ks s) :=
  (contextOperand_raises _ (by decide)).bind fun _ => (operand_raises _ (by decide)).bind fun _ =>
    (keyOperand_raises _ _ (by decide)).bind fun _ => raisesOnly_ok _

theorem cryptResult_raises (ks : Slot) (s : State) :
    RaisesOnly [.illegalOperand, .keyUnavailable] (cryptResult ks s) :=
  (contextOperand_raises _ (by decide)).bind fun _ =>
    (keyOperand_raises _ _ (by decide)).bind fun _ => raisesOnly_ok _

theorem kdfResult_raises (s : State) :
    RaisesOnly [.illegalOperand, .keyUnavailable] (kdfResult s) :=
  (operand_raises _ (by decide)).bind fun _ => (nonceOperand_raises _ (by decide)).bind fun _ =>
    (rootKeys_raises _ _ (by decide)).bind fun _ => raisesOnly_ok _

theorem deriveResult_raises (s : State) :
    RaisesOnly [.malformedFrame, .invalidJoinPair, .illegalOperand, .keyUnavailable]
      (deriveResult s) := by
  refine (operand_raises _ (by decide)).bind fun _ => (rootKeys_raises _ _ (by decide)).bind fun _ => ?_
  split
  · exact raisesOnly_error (by decide)
  · split
    · exact raisesOnly_error (by decide)
    · exact raisesOnly_ok _

theorem micResult_raises (s : State) :
    RaisesOnly [.malformedFrame, .illegalOperand, .keyUnavailable] (micResult s) := by
  refine (operand_raises _ (by decide)).bind fun ver => ?_
  split
  · exact raisesOnly_error (by decide)
  · exact (micOfFrame_raises _ _ _ _ (by decide)).bind fun _ => raisesOnly_ok _

/-- A report of a computation shows only the errors of the computation. -/
theorem Report.of_error_mem {α : Type} {x : Except ErrCode α} {l : List ErrCode} {d : α → Write}
    {c : Write} (hx : RaisesOnly l x) {e : ErrCode} (h : (Report.of x d c).error = some e) : e ∈ l := by
  cases x with
  | ok a => cases h
  | error _ => cases h; exact hx _ rfl

theorem parseReport_error_mem {s : State} {e : ErrCode} (h : (parseReport s).error = some e) :
    e ∈ [ErrCode.malformedFrame, .illegalOperand] := by
  obtain ⟨_, he, hr, -⟩ | ⟨m, hr, -⟩ | ⟨ver, m, b, -, hr, -⟩ := parse_outcomes s <;>
    rw [hr] at h <;> cases h
  · rw [verOperand_error he]; decide
  · decide

/-- PARSE and DECODE end alike. -/
theorem decodeReport_error (s : State) : (decodeReport s).error = (parseReport s).error := by
  obtain ⟨e, -, hp, hd⟩ | ⟨m, hp, hd⟩ | ⟨ver, m, b, -, hp, hd⟩ := parse_outcomes s <;> rw [hp, hd]

/-- The errors of each command (R210, column "raised by"). -/
def errorsOf : Instr → List ErrCode
  | .nop | .clr => []
  | .cmac _ => [.keyUnavailable]
  | .xbits _ => [.rangeError, .illegalOperand]
  | .parse | .decode => [.malformedFrame, .illegalOperand]
  | .aesenc _ | .kdf | .kstream _ | .crypt _ => [.illegalOperand, .keyUnavailable]
  | .derive => [.malformedFrame, .invalidJoinPair, .illegalOperand, .keyUnavailable]
  | .cmic | .vmic => [.malformedFrame, .illegalOperand, .keyUnavailable]

/-- A command reports only its own errors (R210). -/
theorem report_error_mem {i : Instr} {s : State} {e : ErrCode} (h : (report i s).error = some e) :
    e ∈ errorsOf i := by
  cases i with
  | nop | clr => cases h
  | aesenc ks => exact Report.of_error_mem (aesencResult_raises ks s) h
  | cmac ks => exact Report.of_error_mem (cmacResult_raises ks s) h
  | xbits le => exact Report.of_error_mem (xbitsResult_raises le s) h
  | parse => exact parseReport_error_mem h
  | decode => exact parseReport_error_mem (decodeReport_error s ▸ h)
  | kdf => exact Report.of_error_mem (kdfResult_raises s) h
  | derive => exact Report.of_error_mem (deriveResult_raises s) h
  | kstream ks => exact Report.of_error_mem (kstreamResult_raises ks s) h
  | crypt ks => exact Report.of_error_mem (cryptResult_raises ks s) h
  | cmic | vmic => exact Report.of_error_mem (micResult_raises s) h

/-- No command reports the reserved code 4 (R214). -/
theorem report_error_ne_truncated (i : Instr) (s : State) :
    (report i s).error ≠ some .truncatedCommand := by
  intro h
  have hmem := report_error_mem h
  cases i <;> simp [errorsOf] at hmem

/-! ## O49, the commands: what PARSE and DECODE deliver is coherent -/

/-- What a frame parses to (R122 to R129): the body of each layout. -/
inductive ParsesTo (frame : List Byte) (ver : Version) (fcnthi : BitVec 16) (root : Option Block) :
    Body → Prop where
  | joinRequest : frame.length = 23 →
      ParsesTo frame ver fcnthi root (.joinRequest (joinRequestOf frame))
  | joinAccept (k) : frame.length = 17 ∨ frame.length = 33 → root = some k →
      ParsesTo frame ver fcnthi root
        (.joinAccept (joinAcceptOf ver (jaPlain k (slice frame 1 (frame.length - 1)))))
  | joinAcceptEnc : frame.length = 17 ∨ frame.length = 33 → root = none →
      ParsesTo frame ver fcnthi root (.joinAcceptEnc (slice frame 1 (frame.length - 1)))
  | data (dir) : 12 + (fctrlFoptslen (byteAt frame 5)).toNat ≤ frame.length →
      ParsesTo frame ver fcnthi root (.data (dataFrameOf dir fcnthi frame))
  | unstructured : ParsesTo frame ver fcnthi root .unstructured

section
variable {frame : List Byte} {ver : Version} {fcnthi : BitVec 16} {root : Option Block}
  {n m : Mhdr} {b : Body}

theorem parseJoinRequest_parsesTo (h : parseJoinRequest n frame = .frame m b) :
    ParsesTo frame ver fcnthi root b := by
  unfold parseJoinRequest at h
  split at h
  · cases h; exact .joinRequest ‹_›
  · cases h

theorem parseJoinAccept_parsesTo (h : parseJoinAccept n ver root frame = .frame m b) :
    ParsesTo frame ver fcnthi root b := by
  unfold parseJoinAccept at h
  split at h
  · cases root with
    | some k => cases h; exact .joinAccept k ‹_› rfl
    | none => cases h; exact .joinAcceptEnc ‹_› rfl
  · cases h

theorem parseData_parsesTo {dir : BitVec 1} (h : parseData n dir fcnthi frame = .frame m b) :
    ParsesTo frame ver fcnthi root b := by
  unfold parseData at h
  split at h
  · cases h
  · cases h; exact .data dir (Nat.le_of_not_lt ‹_›)

theorem parseFrame_parsesTo (h : parseFrame frame ver fcnthi root = .frame m b) :
    ParsesTo frame ver fcnthi root b := by
  unfold parseFrame at h
  dsimp only at h
  split at h
  · cases h
  split at h
  · cases h
  split at h
  case h_1 => exact parseJoinRequest_parsesTo h
  case h_2 => exact parseJoinAccept_parsesTo h
  case h_7 | h_8 => cases h; exact .unstructured
  all_goals exact parseData_parsesTo h

/-- The registers of a parsed frame are valid as its kind says (R22). -/
theorem ParsesTo.ofFrame_coherent (h : ParsesTo frame ver fcnthi root b) (m : Mhdr) :
    (Fields.ofFrame m b).coherent = true := by
  cases h with
  | data dir =>
    obtain rfl | rfl := BitVec.eq_zero_or_eq_one dir <;>
      simp [Fields.coherent, Fields.kindCoherent, Fields.headerCoherent, Fields.joinRequestCoherent,
        Fields.joinAcceptCoherent, Fields.dataCoherent, Fields.ofFrame, Fields.header, Fields.empty,
        Body.kind, dataFrameOf, fctrlAdrackreq, fctrlFpending, fctrlClassb]
  | joinAccept k =>
    simp [Fields.coherent, Fields.kindCoherent, Fields.headerCoherent, Fields.joinRequestCoherent,
      Fields.joinAcceptCoherent, Fields.dataCoherent, Fields.ofFrame, Fields.header, Fields.empty,
      Body.kind]
  | joinRequest | joinAcceptEnc | unstructured => rfl

end

theorem Fields.malformed_coherent (m : Option Mhdr) : (Fields.malformed m).coherent = true := by
  cases m <;> rfl

/-- `F_PAY_ENC` may have a value in a data frame (R22). -/
theorem Fields.coherent_payEnc {f : Fields} (hf : f.coherent = true) (hk : f.kind = some 4)
    (v : BitVec 1) : ({ f with payEnc := some v } : Fields).coherent = true := by
  simpa [Fields.coherent, Fields.kindCoherent, Fields.headerCoherent, Fields.joinRequestCoherent,
    Fields.joinAcceptCoherent, Fields.dataCoherent, hk] using hf

/-- DECODE changes the registers of PARSE in the payload flag of a data frame alone (R200). -/
theorem decodedOf_coherent {b : Body} {m : Mhdr} (h : (Fields.ofFrame m b).coherent = true)
    (ver : Version) (k : KeyFile) (frame : List Byte) :
    (decodedOf ver k frame m b).1.coherent = true := by
  cases b with
  | data d => exact Fields.coherent_payEnc h rfl _
  | _ => exact h

theorem ecbBlocks_length (key : Block) (n : Nat) (e : List Byte) :
    (ecbBlocks key n e).length = 16 * n := by
  induction n generalizing e with
  | zero => rfl
  | succ n ih => rw [ecbBlocks, List.length_append, blockBytes_length, ih]; omega

theorem jaPlain_length_le (key : Block) (e : List Byte) : (jaPlain key e).length ≤ e.length := by
  rw [jaPlain, ecbEnc, ecbBlocks_length]
  exact Nat.mul_div_le _ _

theorem cryptBlocks_length_le (key : Block) (c : Context) (k i : Nat) (d : List Byte) :
    (cryptBlocks key c k i d).length ≤ d.length := by
  induction k generalizing i d with
  | zero => exact Nat.zero_le _
  | succ k ih =>
    have := ih (i + 1) (d.drop 16)
    simp only [cryptBlocks, List.length_append, xorBytes_length, blockBytes_length, List.length_take,
      List.length_drop] at this ⊢
    omega

theorem crypt_length_le (d : List Byte) (key : Block) (c : Context) :
    (crypt d key c).length ≤ d.length := cryptBlocks_length_le _ _ _ _ _

theorem slice_length_le (b : List Byte) (a n : Nat) : (slice b a n).length ≤ b.length := by
  rw [slice_length]
  omega

/-- The output of a parsed frame is no longer than the frame. -/
theorem ParsesTo.output_length_le {frame : List Byte} {ver : Version} {fcnthi : BitVec 16}
    {root : Option Block} {b : Body} (h : ParsesTo frame ver fcnthi root b) :
    b.output.length ≤ frame.length := by
  cases h with
  | joinAccept k => exact (jaPlain_length_le k _).trans (slice_length_le _ _ _)
  | joinAcceptEnc => exact slice_length_le _ _ _
  | joinRequest | data | unstructured => exact Nat.zero_le _

theorem payloadOf_length_le (ver : Version) (k : KeyFile) (frame : List Byte) (d : DataFrame) :
    (payloadOf ver k frame d).1.length ≤ frame.length := by
  unfold payloadOf
  split
  · exact Nat.zero_le _
  split
  · exact Nat.zero_le _
  split
  · exact (crypt_length_le _ _ _).trans (slice_length_le _ _ _)
  · exact slice_length_le _ _ _

theorem decodedOf_length_le {frame : List Byte} {b : Body} (h : b.output.length ≤ frame.length)
    (ver : Version) (k : KeyFile) (m : Mhdr) :
    (decodedOf ver k frame m b).2.length ≤ frame.length := by
  cases b with
  | data d => exact payloadOf_length_le ver k frame d
  | _ => exact h

theorem cryptResult_length {ks : Slot} {s : State} {b : List Byte} (h : cryptResult ks s = .ok b) :
    b.length ≤ s.ibuf.length := by
  obtain ⟨c, -, h⟩ := bind_eq_ok h
  obtain ⟨k, -, h⟩ := bind_eq_ok h
  cases h
  simpa using crypt_length_le s.ibuf.bytes k c

/-! ## O49, O48: the invariant -/

/-- What a write must deliver to keep the invariant: coherent fields, and a string that fits in a
buffer. -/
def Write.Sound : Write → Prop
  | .obuf b => b.length ≤ Config.nbuf
  | .parsed f b | .decoded f b _ => f.coherent = true ∧ b.length ≤ Config.nbuf
  | .nothing | .reset | .oblk _ | .xVal _ | .keys _ | .micDerived _ | .mic _ => True

/-- With a canonical `IBUF`, PARSE and DECODE make sound writes. -/
theorem parse_sound {s : State} (hs : s.ibuf.wf = true) :
    (parseReport s).write.Sound ∧ (decodeReport s).write.Sound := by
  obtain ⟨e, -, hp, hd⟩ | ⟨m, hp, hd⟩ | ⟨ver, m, b, hb, hp, hd⟩ := parse_outcomes s <;> rw [hp, hd]
  · exact ⟨⟨rfl, Nat.zero_le _⟩, rfl, Nat.zero_le _⟩
  · exact ⟨⟨Fields.malformed_coherent m, Nat.zero_le _⟩, Fields.malformed_coherent m, Nat.zero_le _⟩
  · have hb := parseFrame_parsesTo hb
    have hf := hb.ofFrame_coherent m
    have ho := hb.output_length_le
    have hlen : s.ibuf.bytes.length ≤ Config.nbuf := by
      rw [Memory.bytes_length]
      exact Memory.wf_length hs
    exact ⟨⟨hf, ho.trans hlen⟩, decodedOf_coherent hf _ _ _, (decodedOf_length_le ho _ _ _).trans hlen⟩

/-- With a canonical `IBUF` every command makes a sound write. -/
theorem report_sound {s : State} (hs : s.ibuf.wf = true) (i : Instr) : (report i s).write.Sound := by
  cases i with
  | parse => exact (parse_sound hs).1
  | decode => exact (parse_sound hs).2
  | crypt ks =>
    exact Report.of_write Write.Sound
      (fun b hb => (cryptResult_length hb).trans (Memory.wf_length hs)) (Nat.zero_le _)
  | nop | clr => trivial
  | aesenc | cmac | xbits | kdf | derive | kstream | cmic | vmic =>
    exact Report.of_write Write.Sound (fun _ _ => trivial) trivial

/-- The invariant, part by part. -/
theorem State.inv_iff (s : State) :
    s.inv = true ↔ s.ibuf.wf = true ∧ s.abuf.wf = true ∧ s.obuf.wf = true ∧
      s.statusCoherent = true ∧ s.f.coherent = true := by
  simp [State.inv, State.buffersCanonical, and_assoc]

/-- Settles O48, by evaluation of the one state. -/
theorem resetStateMeetsInv : Obligations.ResetStateMeetsInv := by
  constructor <;> decide

/-- Reset, whatever the host's own fields hold, meets the invariant. -/
theorem State.clear_inv (s : State) : s.clear.inv = true := resetStateMeetsInv.1

/-- A sound write keeps the invariant. -/
theorem Write.apply_inv {w : Write} (hw : w.Sound) {s : State} (h : s.inv = true) :
    (w.apply s).inv = true := by
  obtain ⟨hibuf, habuf, hobuf, hstatus, hf⟩ := s.inv_iff.mp h
  cases w with
  | reset => exact s.clear_inv
  | obuf b => exact (State.inv_iff _).mpr ⟨hibuf, habuf, Memory.wf_ofBytes b hw, hstatus, hf⟩
  | parsed f b => exact (State.inv_iff _).mpr ⟨hibuf, habuf, Memory.wf_ofBytes b hw.2, hstatus, hw.1⟩
  | decoded f b m =>
    exact (State.inv_iff _).mpr ⟨hibuf, habuf, Memory.wf_ofBytes b hw.2, hstatus, hw.1⟩
  | nothing | oblk | xVal | keys | micDerived | mic => exact h

/-- Recording a code other than the reserved one keeps the status registers coherent (R210, R214). -/
theorem State.raise_statusCoherent {s : State} (h : s.statusCoherent = true) {e : ErrCode}
    (he : e ≠ .truncatedCommand) : (s.raise e).statusCoherent = true := by
  simp only [State.statusCoherent, Bool.and_eq_true, Bool.not_eq_true'] at h
  obtain ⟨⟨⟨h0, h4⟩, -⟩, -⟩ := h
  cases e <;> simp_all [State.statusCoherent, ErrCode.code, ErrCode.sticky]

/-- Ending without error keeps the status registers coherent. -/
theorem State.succeed_statusCoherent {s : State} (h : s.statusCoherent = true) :
    s.succeed.statusCoherent = true := by
  simp_all [State.statusCoherent]

/-- Ending a command keeps the invariant. -/
theorem State.conclude_inv {s : State} (h : s.inv = true) {e : Option ErrCode}
    (he : e ≠ some .truncatedCommand) : (s.conclude e).inv = true := by
  obtain ⟨hibuf, habuf, hobuf, hstatus, hf⟩ := s.inv_iff.mp h
  cases e with
  | none => exact (inv_iff _).mpr ⟨hibuf, habuf, hobuf, succeed_statusCoherent hstatus, hf⟩
  | some e =>
    exact (inv_iff _).mpr
      ⟨hibuf, habuf, hobuf, raise_statusCoherent hstatus (fun h => he (h ▸ rfl)), hf⟩

/-- An illegal word keeps the invariant: code 5 is not the reserved one (R217). -/
theorem State.illegalCommand_inv {s : State} (h : s.inv = true) : s.illegalCommand.inv = true :=
  have hcode : some ErrCode.illegalCommand ≠ some .truncatedCommand := by decide
  conclude_inv h hcode

/-- Every command keeps the invariant. -/
theorem exec_keeps_inv {i : Instr} {s t : State} (hs : s.inv = true) (h : exec i s = .next t) :
    t.inv = true := by
  obtain ⟨hibuf, -⟩ := s.inv_iff.mp hs
  rw [exec_next h]
  exact State.conclude_inv (Write.apply_inv (report_sound hibuf i) hs) (report_error_ne_truncated i s)

/-! ## O50: the verdict -/

/-- `MIC_OK` is the verdict on the two MICs (R23). -/
def MicRegs.Coherent (m : MicRegs) : Prop := m.ok = micVerdict m.inframe m.derived

theorem State.verdictCoherent_iff (s : State) : s.verdictCoherent = true ↔ s.mic.Coherent := by
  simp [State.verdictCoherent, MicRegs.Coherent]

theorem micRegs_coherent (inframe derived : Option Quad) : (micRegs inframe derived).Coherent := rfl

theorem MicRegs.empty_coherent : MicRegs.empty.Coherent := rfl

/-- The MIC registers that VMIC delivers hold their verdict (R187). -/
theorem micResult_coherent {s : State} {m : MicRegs} (h : micResult s = .ok m) : m.Coherent := by
  obtain ⟨ver, -, h⟩ := bind_eq_ok h
  split at h
  · cases h
  · obtain ⟨d, -, h⟩ := bind_eq_ok h
    cases h
    exact micRegs_coherent _ _

/-- A write of all three MIC registers writes their verdict too, and no write writes `MIC_DERIVED`
alone. -/
def Write.VerdictSound : Write → Prop
  | .mic m | .decoded _ _ m => m.Coherent
  | .micDerived _ => False
  | .nothing | .reset | .oblk _ | .xVal _ | .obuf _ | .parsed _ _ | .keys _ => True

/-- A command's write keeps the verdict coherent, that of CMIC apart (log entry 10). -/
theorem report_verdictSound {i : Instr} (hi : i ≠ .cmic) (s : State) :
    (report i s).write.VerdictSound := by
  cases i with
  | cmic => exact absurd rfl hi
  | vmic =>
    exact Report.of_write Write.VerdictSound (fun _ hm => micResult_coherent hm)
      MicRegs.empty_coherent
  | decode =>
    obtain ⟨e, -, -, hd⟩ | ⟨m, -, hd⟩ | ⟨ver, m, b, -, -, hd⟩ := parse_outcomes s <;>
      rw [report, hd]
    · exact MicRegs.empty_coherent
    · exact MicRegs.empty_coherent
    · exact micRegs_coherent _ _
  | parse =>
    obtain ⟨e, -, hp, -⟩ | ⟨m, hp, -⟩ | ⟨ver, m, b, -, hp, -⟩ := parse_outcomes s <;>
      rw [report, hp] <;> trivial
  | nop | clr => trivial
  | aesenc | cmac | xbits | kdf | derive | kstream | crypt =>
    exact Report.of_write Write.VerdictSound (fun _ _ => trivial) trivial

theorem Write.apply_verdict {w : Write} (hw : w.VerdictSound) {s : State} (h : s.mic.Coherent) :
    (w.apply s).mic.Coherent := by
  cases w with
  | mic m | decoded f b m => exact hw
  | micDerived v => exact hw.elim
  | reset => exact MicRegs.empty_coherent
  | nothing | oblk | xVal | obuf | parsed | keys => exact h

/-- A state of the invariant at which CMIC leaves an old verdict: there is no version, so CMIC clears
`MIC_DERIVED`, while `MIC_OK` still says that the two MICs agree. -/
def staleState : State := { State.reset with mic := ⟨some 1, some 1, some 1⟩ }

/-- Settles O50: every other command writes the verdict with the MICs; CMIC at `staleState` does not. -/
theorem onlyCmicCanLeaveAStaleVerdict : Obligations.OnlyCmicCanLeaveAStaleVerdict := by
  refine ⟨fun i s t hi hs h => ?_, staleState, _, by decide, by decide, exec_eq .cmic staleState,
    by decide⟩
  rw [State.verdictCoherent_iff] at hs ⊢
  rw [exec_next h, Report.apply, State.conclude_mic]
  exact Write.apply_verdict (report_verdictSound hi s) hs

/-! ## What each action of the host does -/

/-- An action the host has goes on to a state with a property; any other stops by name (R11, ID10). -/
def GoesOn (a : HostAction) (P : State → Prop) (o : Host.Outcome State Fault Refusal) : Prop :=
  (a.wellFormed = true ∧ ∃ t, o = .next t ∧ P t) ∨ (a.wellFormed = false ∧ ∃ f, o = .fault f)

section
variable {a : HostAction} {P Q : State → Prop} {o : Host.Outcome State Fault Refusal}

theorem GoesOn.imp (h : GoesOn a P o) (hPQ : ∀ t, P t → Q t) : GoesOn a Q o := by
  obtain ⟨ha, t, ho, ht⟩ | h := h
  · exact .inl ⟨ha, t, ho, hPQ t ht⟩
  · exact .inr h

theorem GoesOn.next (h : GoesOn a P o) (ha : a.wellFormed = true) : ∃ t, o = .next t ∧ P t := by
  obtain ⟨-, h⟩ | ⟨hf, -⟩ := h
  · exact h
  · rw [ha] at hf
    cases hf

theorem GoesOn.of_next (h : GoesOn a P o) {t : State} (ho : o = .next t) : P t := by
  obtain ⟨-, u, hu, hP⟩ | ⟨-, f, hf⟩ := h
  · rw [ho] at hu
    cases hu
    exact hP
  · rw [ho] at hf
    cases hf

/-- The action stops exactly when it does not exist, and goes on exactly when it does. -/
theorem GoesOn.iff (h : GoesOn a P o) :
    ((∃ f, o = .fault f) ↔ a.wellFormed = false) ∧ ((∃ t, o = .next t) ↔ a.wellFormed = true) := by
  obtain ⟨ha, t, rfl, -⟩ | ⟨ha, f, rfl⟩ := h <;> simp [ha]

end

/-- A number is the value of a register of w bits exactly when it fits (R11). -/
theorem bitsValue_cases (v : RegValue) (w : Nat) :
    (∃ x : BitVec w, v.fits (.bits w) = true ∧ bitsValue v w = some x ∧ v = .num x.toNat) ∨
      (v.fits (.bits w) = false ∧ bitsValue v w = none) := by
  cases v with
  | bytes b => exact .inr ⟨rfl, rfl⟩
  | num n =>
    by_cases h : n < 2 ^ w
    · exact .inl ⟨BitVec.ofNat w n, by simp [RegValue.fits, h], by simp [bitsValue, h], by
        rw [BitVec.toNat_ofNat, Nat.mod_eq_of_lt h]⟩
    · exact .inr ⟨by simpa [RegValue.fits] using h, by simp [bitsValue, h]⟩

/-- A string of sixteen bytes is the bytes of its block. -/
theorem blockBytes_blockOf {b : List Byte} (h : b.length = 16) : blockBytes (blockOf b) = b := by
  apply List.ext_getElem
  · rw [blockBytes_length, h]
  · intro n hn hb
    have hn : n < 16 := by simpa using hn
    interval_cases n <;> simp [blockOf, quadAt, byteAt, blockBytes, quadBytes, hb]

/-- A string is the value of a sixteen-byte register exactly when it fits (R11). -/
theorem blockRegValue_cases (v : RegValue) :
    (∃ x, v.fits .block = true ∧ blockRegValue v = some x ∧ v = .bytes (blockBytes x)) ∨
      (v.fits .block = false ∧ blockRegValue v = none) := by
  cases v with
  | num n => exact .inr ⟨rfl, rfl⟩
  | bytes b =>
    by_cases h : b.length = 16
    · exact .inl ⟨blockOf b, by simp [RegValue.fits, h], by simp [blockRegValue, blockValue, h],
        by rw [blockBytes_blockOf h]⟩
    · exact .inr ⟨by simpa [RegValue.fits] using h, by simp [blockRegValue, blockValue, h]⟩

/-- The effect of a host's write on the state: r holds v, and every other register, every buffer and the
model's own fields are unchanged. -/
structure Stores (s : State) (r : RegName) (v : RegValue) (t : State) : Prop where
  written : t.register r = some v
  others : ∀ q, q ≠ r → t.register q = s.register q
  buffers : ∀ b, t.buffer b = s.buffer b
  inbox : t.inbox = s.inbox
  outbox : t.outbox = s.outbox
  draws : t.draws = s.draws
  inv : t.inv = s.inv

theorem write_wellFormed (r : RegName) (v : RegValue) :
    (HostAction.write r v).wellFormed = (r.hostWritable && v.fits r.shape) := rfl

theorem store_bits_goesOn {s : State} {r : RegName} {v : RegValue} {w : Nat} {put : BitVec w → State}
    (hr : r.hostWritable = true) (hw : r.shape = .bits w)
    (h : ∀ x : BitVec w, Stores s r (.num x.toNat) (put x)) :
    GoesOn (.write r v) (Stores s r v) (store (bitsValue v w) put) := by
  rw [GoesOn, write_wellFormed, hr, hw]
  obtain ⟨x, hf, hb, rfl⟩ | ⟨hf, hb⟩ := bitsValue_cases v w <;> rw [hf, hb]
  · exact .inl ⟨rfl, put x, rfl, h x⟩
  · exact .inr ⟨rfl, _, rfl⟩

theorem store_block_goesOn {s : State} {r : RegName} {v : RegValue} {put : Block → State}
    (hr : r.hostWritable = true) (hw : r.shape = .block)
    (h : ∀ x, Stores s r (.bytes (blockBytes x)) (put x)) :
    GoesOn (.write r v) (Stores s r v) (store (blockRegValue v) put) := by
  rw [GoesOn, write_wellFormed, hr, hw]
  obtain ⟨x, hf, hb, rfl⟩ | ⟨hf, hb⟩ := blockRegValue_cases v <;> rw [hf, hb]
  · exact .inl ⟨rfl, put x, rfl, h x⟩
  · exact .inr ⟨rfl, _, rfl⟩

/-- A HostWrite stores a value that fits in a host-writable register (R11). -/
theorem hostWrite_goesOn (r : RegName) (v : RegValue) (s : State) :
    GoesOn (.write r v) (Stores s r v) (hostWrite r v s) := by
  cases r with
  | ver | fcnthi | cDir | cDevaddr | cFcnt32 | cBlkidx | xByteoff | xBitoff | xWidth | nAppnonce | nId
  | nDevnonce =>
    refine store_bits_goesOn rfl rfl fun x => ⟨rfl, fun q hq => ?_, fun _ => rfl, rfl, rfl, rfl, rfl⟩
    -- every location but the one written reads the same field as before
    cases q <;> try rfl
    exact absurd rfl hq
  | blk =>
    refine store_block_goesOn rfl rfl fun x => ⟨rfl, fun q hq => ?_, fun _ => rfl, rfl, rfl, rfl, rfl⟩
    cases q with
    | blk => exact absurd rfl hq
    | _ => rfl
  | _ => exact .inr ⟨rfl, .notHostWritable, rfl⟩

/-- A number identifies a key slot exactly when it is below 8 (R15). -/
theorem slot_ofNumber_cases (n : Nat) :
    (∃ slot, n < 8 ∧ Slot.ofNumber n = some slot) ∨ (¬ n < 8 ∧ Slot.ofNumber n = none) := by
  by_cases h : n < 8
  · exact .inl ⟨Slot.all[n], h, List.getElem?_eq_getElem h⟩
  · exact .inr ⟨h, List.getElem?_eq_none (Nat.le_of_not_lt h)⟩

theorem slot_ofNumber_bits (slot : Slot) : Slot.ofNumber slot.bits.toNat = some slot := by
  cases slot <;> rfl

/-- A HostWriteKey writes sixteen bytes to a slot (R11). -/
theorem hostWriteKey_goesOn (n : Nat) (b : List Byte) (s : State) :
    GoesOn (.writeKey n b)
      (fun t => ∃ slot, Slot.ofNumber n = some slot ∧ t = s.setKeys (s.keys.set slot (blockOf b)))
      (hostWriteKey n b s) := by
  unfold hostWriteKey blockValue
  obtain ⟨slot, hn, hslot⟩ | ⟨hn, hslot⟩ := slot_ofNumber_cases n <;> rw [hslot]
  · by_cases hb : b.length = 16
    · rw [if_pos hb]
      exact .inl ⟨by simp [HostAction.wellFormed, hn, hb], _, rfl, slot, rfl, rfl⟩
    · rw [if_neg hb]
      exact .inr ⟨by simp [HostAction.wellFormed, hb], _, rfl⟩
  · exact .inr ⟨by simp [HostAction.wellFormed, hn], .noSuchSlot, rfl⟩

/-- A HostLoad replaces an input buffer by a string that fits (R11). -/
theorem hostLoad_goesOn (buf : Buf) (b : List Byte) (s : State) :
    GoesOn (.load buf b)
      (fun t => b.length ≤ Config.nbuf ∧
        (buf = .ibuf ∧ t = { s with ibuf := Memory.ofBytes b } ∨
          buf = .abuf ∧ t = { s with abuf := Memory.ofBytes b }))
      (hostLoad buf b s) := by
  unfold hostLoad
  by_cases h : b.length > Config.nbuf
  · rw [if_pos h]
    exact .inr ⟨by simp [HostAction.wellFormed, h], _, rfl⟩
  · have hb : b.length ≤ Config.nbuf := Nat.le_of_not_lt h
    rw [if_neg h]
    cases buf with
    | ibuf => exact .inl ⟨by simpa [HostAction.wellFormed] using hb, _, rfl, hb, .inl ⟨rfl, rfl⟩⟩
    | abuf => exact .inl ⟨by simpa [HostAction.wellFormed] using hb, _, rfl, hb, .inr ⟨rfl, rfl⟩⟩
    | obuf => exact .inr ⟨rfl, _, rfl⟩

/-- A HostRead of a valid register answers its value. -/
theorem hostRead_valid {r : RegName} (s : State) {v : RegValue} (h : s.register r = some v) :
    hostRead r s = .next (s.answer (.register true v)) := by
  unfold hostRead
  split
  · cases h
  · cases h
  · rw [h]

/-- A HostRead of an invalid register answers a draw. -/
theorem hostRead_invalid {r : RegName} (s : State) (h : s.register r = none) (hc : r ≠ .cmd)
    (hb : ∀ b, r ≠ .buffer b) :
    hostRead r s =
      .next { s.answer (.register false (freeValue r.shape s.draws)) with draws := s.draws + 1 } := by
  unfold hostRead
  split
  · exact absurd rfl hc
  · exact absurd rfl (hb _)
  · rw [h]

/-- A HostRead answers the host and does nothing else (R11). -/
theorem hostRead_goesOn (r : RegName) (s : State) :
    GoesOn (.read r) (fun t => ∃ a d, t = { s.answer a with draws := d }) (hostRead r s) := by
  by_cases hc : r = .cmd
  · subst hc
    exact .inr ⟨rfl, _, rfl⟩
  · refine .inl ⟨by simpa [HostAction.wellFormed] using hc, ?_⟩
    obtain ⟨a, h⟩ | ⟨a, h⟩ | h := hostRead_cases r s
    · exact ⟨_, h, a, s.draws, rfl⟩
    · exact ⟨_, h, a, _, rfl⟩
    · unfold hostRead at h
      split at h
      · exact absurd rfl hc
      · cases h
      · split at h <;> cases h

/-- Issuing a word keeps the host's list and the invariant. -/
theorem issueWord_goesOn (w : Word) (s : State) :
    GoesOn (.issue w) (fun t => t.inbox = s.inbox ∧ (s.inv = true → t.inv = true)) (issueWord w s) := by
  refine .inl ⟨rfl, ?_⟩
  obtain ⟨i, -, h⟩ | ⟨-, h⟩ := issueWord_cases w s <;> rw [h]
  · exact ⟨_, exec_eq i s, Report.apply_inbox _ s, fun hs => exec_keeps_inv hs (exec_eq i s)⟩
  · exact ⟨_, rfl, rfl, fun hs => State.illegalCommand_inv hs⟩

/-- Every action the host has goes on, and keeps the rest of the list and the invariant. -/
theorem performAction_goesOn (a : HostAction) (s : State) :
    GoesOn a (fun t => t.inbox = s.inbox ∧ (s.inv = true → t.inv = true)) (performAction a s) := by
  cases a with
  | write r v => exact (hostWrite_goesOn r v s).imp fun t h => ⟨h.inbox, fun hs => h.inv ▸ hs⟩
  | writeKey n b =>
    refine (hostWriteKey_goesOn n b s).imp ?_
    rintro _ ⟨slot, -, rfl⟩
    exact ⟨rfl, id⟩
  | load buf b =>
    refine (hostLoad_goesOn buf b s).imp ?_
    rintro _ ⟨hb, ⟨-, rfl⟩ | ⟨-, rfl⟩⟩ <;> refine ⟨rfl, fun hs => ?_⟩ <;>
      obtain ⟨hibuf, habuf, hrest⟩ := s.inv_iff.mp hs
    · exact (State.inv_iff _).mpr ⟨Memory.wf_ofBytes b hb, habuf, hrest⟩
    · exact (State.inv_iff _).mpr ⟨hibuf, Memory.wf_ofBytes b hb, hrest⟩
  | read r =>
    refine (hostRead_goesOn r s).imp ?_
    rintro _ ⟨a, d, rfl⟩
    exact ⟨rfl, id⟩
  | issue w => exact issueWord_goesOn w s
  | reset => exact .inl ⟨rfl, s.clear, rfl, rfl, fun _ => s.clear_inv⟩

/-! ## O41, O42, O43: the host's actions, one by one -/

/-- A step performs the first action of the list. -/
theorem step_of_inbox {s : State} {a : HostAction} {rest : List HostAction}
    (h : s.inbox = a :: rest) : step s = performAction a { s with inbox := rest } := by
  rw [step, h]

/-- Settles O41, from what a HostWrite stores. -/
theorem hostWriteStoresTheValue : Obligations.HostWriteStoresTheValue := by
  intro s r v rest h hr hv
  rw [step_of_inbox h]
  have hwf : (HostAction.write r v).wellFormed = true := by rw [write_wellFormed, hr, hv]; rfl
  obtain ⟨t, ht, hs⟩ := (hostWrite_goesOn r v { s with inbox := rest }).next hwf
  refine ⟨t, ht, hs.written, fun q hq => hs.others q hq, fun b a => ?_, hs.inbox, hs.outbox, hs.draws⟩
  rw [hs.buffers b]
  rfl

/-- Settles O42: a key slot holds the block of the bytes, a buffer the bytes laid out from address 0. -/
theorem hostLoadsKeysAndBuffers : Obligations.HostLoadsKeysAndBuffers := by
  intro s rest b
  refine ⟨fun slot h hb => ⟨blockOf b, blockBytes_blockOf hb, ?_⟩, fun h hb => ?_, fun h hb => ?_⟩
  · rw [step_of_inbox h]
    simp only [performAction, hostWriteKey, slot_ofNumber_bits, blockValue, hb, if_true]
    rfl
  · refine ⟨Memory.ofBytes b, ?_, Memory.size_ofBytes b, Memory.read_ofBytes b⟩
    rw [step_of_inbox h]
    exact if_neg (Nat.not_lt.mpr hb)
  · refine ⟨Memory.ofBytes b, ?_, Memory.size_ofBytes b, Memory.read_ofBytes b⟩
    rw [step_of_inbox h]
    exact if_neg (Nat.not_lt.mpr hb)

/-- A draw has the register's width. -/
theorem freeValue_fits {r : RegName} (hc : r ≠ .cmd) (hb : ∀ b, r ≠ .buffer b) (d : Nat) :
    (freeValue r.shape d).fits r.shape = true := by
  cases h : r.shape with
  | bits w => simp [freeValue, RegValue.fits, Nat.mod_lt _ (Nat.two_pow_pos w)]
  | block => simp [freeValue, RegValue.fits]
  | buffer => cases r <;> cases h; exact absurd rfl (hb _)
  | port => cases r <;> cases h; exact absurd rfl hc

/-- Settles O43: the three answers of a HostRead. -/
theorem hostReadAnswersWithoutSideEffect : Obligations.HostReadAnswersWithoutSideEffect := by
  intro s r rest h
  rw [step_of_inbox h]
  refine ⟨fun v hv => ?_, fun hn hc hb => ⟨_, freeValue_fits hc hb s.draws, ?_⟩, ?_⟩
  · exact hostRead_valid _ hv
  · exact hostRead_invalid _ hn hc hb
  · rintro b rfl
    rfl

/-! ## O45, O46, O49, O5, O6: steps and runs -/

/-- Settles O45: the action is performed, and each kind of action goes on exactly when it exists. -/
theorem stepStopsExactlyOnActionsThatDoNotExist :
    Obligations.StepStopsExactlyOnActionsThatDoNotExist := by
  intro s a rest h
  rw [step_of_inbox h]
  exact (performAction_goesOn a { s with inbox := rest }).iff

/-- Settles O49: commands and host actions keep the invariant, and an idle step changes nothing. -/
theorem everyStepKeepsInv : Obligations.EveryStepKeepsInv := by
  intro s t hs h
  obtain ⟨-, hstep⟩ | ⟨a, rest, -, hstep⟩ := step_cases s <;> rw [hstep] at h
  · cases h
    exact hs
  · exact ((performAction_goesOn a _).of_next h).2 hs

/-- A step takes one action off a list of actions that exist, and never stops. -/
theorem step_of_actionsExist {s : State} (h : s.actionsExist = true) :
    ∃ t, step s = .next t ∧ t.actionsExist = true ∧ t.inbox = s.inbox.drop 1 := by
  obtain ⟨hnil, hstep⟩ | ⟨a, rest, hcons, hstep⟩ := step_cases s <;> rw [hstep]
  · exact ⟨s, rfl, h, by rw [hnil]; rfl⟩
  · rw [State.actionsExist, hcons, List.all_cons, Bool.and_eq_true] at h
    obtain ⟨t, ht, hin, -⟩ := (performAction_goesOn a { s with inbox := rest }).next h.1
    refine ⟨t, ht, ?_, by rw [hin, hcons]; rfl⟩
    rw [State.actionsExist, hin]
    exact h.2

/-- A run takes its first step and goes on from there. -/
theorem run_succ_of_step (M : Host.Core) {s t : M.State} (h : M.step s = .next t) (k : Nat) :
    M.run (k + 1) s = M.run k t := by
  simp only [Host.Core.run, h]

/-- Settles O46, by induction on the number of steps. -/
theorem runsOfExistingActionsComplete : Obligations.RunsOfExistingActionsComplete := by
  intro k
  induction k with
  | zero => exact fun s h => ⟨s, rfl, h, rfl⟩
  | succ k ih =>
    intro s h
    obtain ⟨u, hstep, hu, hin⟩ := step_of_actionsExist h
    obtain ⟨t, hrun, ht, hdrop⟩ := ih u hu
    refine ⟨t, (run_succ_of_step Sys2Proof.core hstep k).trans hrun, ht, ?_⟩
    rw [hdrop, hin, List.drop_drop, Nat.add_comm]

/-- Settles O5, from what a step does with the first action of the list. -/
theorem stepRunsTheDecodedCommand : Obligations.StepRunsTheDecodedCommand := by
  intro s w rest h
  have hstep : step s = issueWord w { s with inbox := rest } := step_of_inbox h
  refine ⟨hstep, fun i hi => ?_⟩
  rw [hstep, issueWord, hi]

/-- Settles O6, location by location. -/
theorem registerNumbersIdentifyLocations : Obligations.RegisterNumbersIdentifyLocations := by
  intro r
  cases r with
  | key s => cases s <;> rfl
  | buffer b => cases b <;> rfl
  | length b => cases b <;> rfl
  | _ => rfl

end Sys2Proof.Machine
end

/-! # The family `20_memory.md`: the byte order of integers -/

section
namespace Sys2Proof.Machine

/-- The byte string of a number keeps the number modulo what its length can hold. -/
theorem intLe_leBytes (n v : Nat) : intLe (leBytes n v) = v % 256 ^ n := by
  induction n generalizing v with
  | zero => simp [leBytes, intLe, Nat.mod_one]
  | succ n ih =>
    calc intLe (leBytes (n + 1) v)
        = v % 256 + 256 * (v / 256 % 256 ^ n) := by simp [leBytes, intLe, ih]
      _ = v % 256 ^ (n + 1) := by rw [Nat.pow_succ', Nat.mod_mul]

/-- The string of a number whose lowest byte is `x` begins with `x` and goes on with the rest. -/
theorem leBytes_succ_add (n : Nat) (x : Byte) (r : Nat) :
    leBytes (n + 1) (x.toNat + 256 * r) = x :: leBytes n r := by
  have hlow : BitVec.ofNat 8 (x.toNat + 256 * r) = x := by
    apply BitVec.eq_of_toNat_eq
    rw [BitVec.toNat_ofNat]
    omega
  have hrest : (x.toNat + 256 * r) / 256 = r := by omega
  rw [leBytes, hlow, hrest]

/-- A string is recovered from its integer and its length. -/
theorem leBytes_intLe (b : List Byte) : leBytes b.length (intLe b) = b := by
  induction b with
  | nil => rfl
  | cons x xs ih => rw [List.length_cons, intLe, leBytes_succ_add, ih]

/-- Settles O58: `le` keeps a number modulo its range, and `int_le` loses nothing of a string. -/
theorem littleEndianRoundTrips : Obligations.LittleEndianRoundTrips :=
  ⟨fun n v hv => (intLe_leBytes n v).trans (Nat.mod_eq_of_lt hv), leBytes_intLe⟩

end Sys2Proof.Machine
end

/-! # The family `30_encoding.md`: command words and cipher input blocks

A command word is its four fields (R50), and a row of R52 is a condition on them. So what a row selects,
what a command's word is and which words are illegal are one statement about fields each. -/

section
namespace Sys2Proof.Machine

open Sys2Proof.Stated Sys2Proof.Laws

/-! ## A word and its fields -/

/-- Two words are the same when their four fields are (R50). -/
theorem word_eq_iff {v w : Word} :
    v = w ↔ v.extractLsb' 12 20 = w.extractLsb' 12 20 ∧ v.getLsbD 11 = w.getLsbD 11 ∧
      v.extractLsb' 8 3 = w.extractLsb' 8 3 ∧ v.extractLsb' 0 8 = w.extractLsb' 0 8 := by
  refine ⟨fun h => h ▸ ⟨rfl, rfl, rfl, rfl⟩, fun ⟨hzero, hle, hks, hop⟩ => ?_⟩
  have hbit : ∀ {a n : Nat}, v.extractLsb' a n = w.extractLsb' a n → ∀ i, a ≤ i → i < a + n →
      v.getLsbD i = w.getLsbD i := by
    intro a n h i ha hn
    have h' := congrArg (fun x => BitVec.getLsbD x (i - a)) h
    have hlt : i - a < n := by omega
    simpa [BitVec.getLsbD_extractLsb', hlt, Nat.add_sub_cancel' ha] using h'
  refine BitVec.eq_of_getLsbD_eq fun i hi => ?_
  obtain h | ⟨hlo, hhi⟩ | h | h : i < 8 ∨ (8 ≤ i ∧ i < 11) ∨ i = 11 ∨ 12 ≤ i := by omega
  · exact hbit hop i (Nat.zero_le i) (by omega)
  · exact hbit hks i hlo hhi
  · exact h ▸ hle
  · exact hbit hzero i h hi

section
variable (op : Byte) (ks : BitVec 3) (le : Bool)

theorem commandWord_zero : (commandWord op ks le).extractLsb' 12 20 = 0 :=
  (BitVec.extractLsb'_append_eq_of_le (xhi := 0#20 ++ BitVec.ofBool le ++ ks) (xlo := op)
    (start := 12) (len := 20) (by decide)).trans <|
  (BitVec.extractLsb'_append_eq_of_le (xhi := 0#20 ++ BitVec.ofBool le) (xlo := ks)
    (start := 4) (len := 20) (by decide)).trans BitVec.extractLsb'_append_eq_left

theorem commandWord_le : (commandWord op ks le).getLsbD 11 = le :=
  (BitVec.getLsbD_append (x := 0#20 ++ BitVec.ofBool le ++ ks) (y := op) (i := 11)).trans <|
  (BitVec.getLsbD_append (x := 0#20 ++ BitVec.ofBool le) (y := ks) (i := 3)).trans <|
  (BitVec.getLsbD_append (x := 0#20) (y := BitVec.ofBool le) (i := 0)).trans <| by
    cases le <;> rfl

theorem commandWord_ks : (commandWord op ks le).extractLsb' 8 3 = ks :=
  (BitVec.extractLsb'_append_eq_of_le (xhi := 0#20 ++ BitVec.ofBool le ++ ks) (xlo := op)
    (start := 8) (len := 3) (by decide)).trans BitVec.extractLsb'_append_eq_right

theorem commandWord_op : (commandWord op ks le).extractLsb' 0 8 = op :=
  BitVec.extractLsb'_append_eq_right (a := 0#20 ++ BitVec.ofBool le ++ ks)

end

/-! ## The fields of a command and of its row -/

/-- The field `OP` of a command (R52). -/
def opOf : Instr → Byte
  | .nop => 0x00
  | .clr => 0x01
  | .aesenc _ => 0x10
  | .cmac _ => 0x11
  | .xbits _ => 0x20
  | .parse => 0x30
  | .decode => 0x31
  | .kdf => 0x40
  | .derive => 0x41
  | .kstream _ => 0x50
  | .crypt _ => 0x51
  | .cmic => 0x60
  | .vmic => 0x61

/-- The field `KS` of a command's word, 0 where the command does not use it. -/
def ksOf : Instr → BitVec 3
  | .aesenc s | .cmac s | .kstream s | .crypt s => s.bits
  | .nop | .clr | .xbits _ | .parse | .decode | .kdf | .derive | .cmic | .vmic => 0

/-- The field `LE` of a command's word, 0 where the command does not use it. -/
def leOf : Instr → Bool
  | .xbits l => l
  | .nop | .clr | .aesenc _ | .cmac _ | .parse | .decode | .kdf | .derive | .kstream _ | .crypt _
  | .cmic | .vmic => false

/-- The mask of a command's row (R52): every bit but those of the fields that the command uses. -/
def fieldMask (i : Instr) : Word :=
  ~~~commandWord 0 (if usesKs i then BitVec.allOnes 3 else 0) (usesLe i)

theorem encode_eq (i : Instr) : encode i = commandWord (opOf i) (ksOf i) (leOf i) := by
  cases i <;> rfl

theorem rowOf_eq (i : Instr) : rowOf i = ⟨commandWord (opOf i) 0 false, fieldMask i⟩ := by
  cases i <;> simp only [rowOf, opOf, fieldMask, usesKs, usesLe, Bool.false_eq_true, if_true,
    if_false] <;> decide

theorem fieldMask_fields (i : Instr) :
    (fieldMask i).extractLsb' 12 20 = BitVec.allOnes 20 ∧ (fieldMask i).getLsbD 11 = !usesLe i ∧
      (fieldMask i).extractLsb' 8 3 = (if usesKs i then 0 else BitVec.allOnes 3) ∧
      (fieldMask i).extractLsb' 0 8 = BitVec.allOnes 8 := by
  rw [fieldMask]
  cases usesKs i <;> cases usesLe i <;> decide

theorem ksOf_of_unused {i : Instr} (h : usesKs i = false) : ksOf i = 0 := by
  cases i with
  | aesenc | cmac | kstream | crypt => cases h
  | _ => rfl

theorem leOf_of_unused {i : Instr} (h : usesLe i = false) : leOf i = false := by
  cases i with
  | xbits => cases h
  | _ => rfl

/-- A word is the command's word when its fields are the command's. -/
theorem encode_eq_iff (i : Instr) (w : Word) :
    encode i = w ↔ w.extractLsb' 12 20 = 0 ∧ w.getLsbD 11 = leOf i ∧ w.extractLsb' 8 3 = ksOf i ∧
      w.extractLsb' 0 8 = opOf i := by
  rw [eq_comm, word_eq_iff, encode_eq, commandWord_zero, commandWord_le, commandWord_ks,
    commandWord_op]

/-- A word selects a command's row when `OP` is the command's and the fields that the command does not
use are 0 (R52, R53). -/
theorem rowOf_selects_iff (i : Instr) (w : Word) :
    (rowOf i).selects w ↔ w.extractLsb' 12 20 = 0 ∧ (usesLe i = false → w.getLsbD 11 = false) ∧
      (usesKs i = false → w.extractLsb' 8 3 = 0) ∧ w.extractLsb' 0 8 = opOf i := by
  obtain ⟨hzero, hle, hks, hop⟩ := fieldMask_fields i
  have hunusedLe : (w.getLsbD 11 && !usesLe i) = false ↔
      (usesLe i = false → w.getLsbD 11 = false) := by cases usesLe i <;> simp
  have hunusedKs : w.extractLsb' 8 3 &&& (if usesKs i then 0 else BitVec.allOnes 3) = 0 ↔
      (usesKs i = false → w.extractLsb' 8 3 = 0) := by
    cases usesKs i <;> simp only [reduceCtorEq, Bool.false_eq_true, if_true, if_false,
      BitVec.and_allOnes, BitVec.ofNat_eq_ofNat, BitVec.and_zero, forall_const, false_imp_iff]
  rw [Row.selects, rowOf_eq, word_eq_iff, commandWord_zero, commandWord_le, commandWord_ks,
    commandWord_op, BitVec.getLsbD_and, BitVec.extractLsb'_and, BitVec.extractLsb'_and,
    BitVec.extractLsb'_and, hzero, hle, hks, hop, BitVec.and_allOnes, BitVec.and_allOnes, hunusedLe,
    hunusedKs]

theorem opOf_of_selects {i : Instr} {w : Word} (h : (rowOf i).selects w) :
    opOf i = w.extractLsb' 0 8 := by
  obtain ⟨-, -, -, hop⟩ := (rowOf_selects_iff i w).mp h
  exact hop.symm

/-- The operands of a command are those of a word when the fields that the command uses are. -/
theorem operandsAreThoseOf_iff (i : Instr) (w : Word) :
    operandsAreThoseOf i w ↔ (usesLe i = true → w.getLsbD 11 = leOf i) ∧
      (usesKs i = true → w.extractLsb' 8 3 = ksOf i) := by
  cases i with
  | aesenc | cmac | kstream | crypt =>
    exact eq_comm.trans ⟨fun h => ⟨nofun, fun _ => h⟩, fun h => h.2 rfl⟩
  | xbits => exact eq_comm.trans ⟨fun h => ⟨fun _ => h, nofun⟩, fun h => h.1 rfl⟩
  | _ => exact ⟨fun _ => ⟨nofun, nofun⟩, fun _ => trivial⟩

/-- A field holds what the command's word has there when it does where the command uses it, and is zero
where the command does not. -/
theorem field_eq_iff {α : Type} {used : Bool} {v zero : α} (h : used = false → v = zero) (x : α) :
    x = v ↔ (used = false → x = zero) ∧ (used = true → x = v) := by
  cases used with
  | false => exact h rfl ▸ ⟨fun hx => ⟨fun _ => hx, nofun⟩, fun hx => hx.1 rfl⟩
  | true => exact ⟨fun hx => ⟨nofun, fun _ => hx⟩, fun hx => hx.2 rfl⟩

/-- A command's word is a word that selects the command's row and holds its operands: a field is fixed by
the row where the command does not use it, and by the operands where it does. -/
theorem encode_eq_iff_selects (i : Instr) (w : Word) :
    encode i = w ↔ (rowOf i).selects w ∧ operandsAreThoseOf i w := by
  have hle := field_eq_iff (leOf_of_unused (i := i)) (w.getLsbD 11)
  have hks := field_eq_iff (ksOf_of_unused (i := i)) (w.extractLsb' 8 3)
  rw [encode_eq_iff, hle, hks, rowOf_selects_iff, operandsAreThoseOf_iff]
  constructor
  · rintro ⟨hzero, ⟨hle, hle'⟩, ⟨hks, hks'⟩, hop⟩
    exact ⟨⟨hzero, hle, hks, hop⟩, hle', hks'⟩
  · rintro ⟨⟨hzero, hle, hks, hop⟩, hle', hks'⟩
    exact ⟨hzero, ⟨hle, hle'⟩, ⟨hks, hks'⟩, hop⟩

/-! ## O2: the decoder reads back what the encoder writes -/

/-- The command of i's row with the operands of w (R51). -/
def readAs (i : Instr) (w : Word) : Instr :=
  match i with
  | .aesenc _ => .aesenc (slotField w)
  | .cmac _ => .cmac (slotField w)
  | .xbits _ => .xbits (leField w)
  | .kstream _ => .kstream (slotField w)
  | .crypt _ => .crypt (slotField w)
  | .nop | .clr | .parse | .decode | .kdf | .derive | .cmic | .vmic => i

theorem rowOf_readAs (i : Instr) (w : Word) : rowOf (readAs i w) = rowOf i := by
  cases i <;> rfl

/-- The key slot read from a word has the number that the word holds: each of the eight exists. -/
theorem slotField_bits (w : Word) : (slotField w).bits = w.extractLsb' 8 3 := by
  have hall : ∀ k : BitVec 3, ((Slot.ofNumber k.toNat).getD .appkey).bits = k := by decide
  exact hall _

theorem operandsAreThoseOf_readAs (i : Instr) (w : Word) : operandsAreThoseOf (readAs i w) w := by
  cases i with
  | aesenc | cmac | kstream | crypt => exact slotField_bits w
  | xbits => rfl
  | _ => trivial

theorem decode_encode (i : Instr) : decode (encode i) = some i := by
  cases i with
  | aesenc s | cmac s | kstream s | crypt s => cases s <;> rfl
  | xbits l => cases l <;> rfl
  | _ => rfl

/-- A word that selects a command's row is the word of that command with the word's own operands, and so
decodes to it. -/
theorem decode_of_selects {w : Word} {i : Instr} (h : (rowOf i).selects w) :
    decode w = some (readAs i w) := by
  have hword : encode (readAs i w) = w := by
    rw [encode_eq_iff_selects, rowOf_readAs]
    exact ⟨h, operandsAreThoseOf_readAs i w⟩
  rw [← decode_encode (readAs i w), hword]

/-- A word that selects no command's row meets none of the decoder's conditions. -/
theorem decode_of_no_row {w : Word} (h : ∀ i, ¬ (rowOf i).selects w) : decode w = none :=
  (if_neg (h .nop)).trans <| (if_neg (h .clr)).trans <| (if_neg (h (.aesenc .appkey))).trans <|
  (if_neg (h (.cmac .appkey))).trans <| (if_neg (h (.xbits false))).trans <|
  (if_neg (h .parse)).trans <| (if_neg (h .decode)).trans <| (if_neg (h .kdf)).trans <|
  (if_neg (h .derive)).trans <| (if_neg (h (.kstream .appkey))).trans <|
  (if_neg (h (.crypt .appkey))).trans <| (if_neg (h .cmic)).trans <| if_neg (h .vmic)

theorem decode_eq_some_iff (w : Word) (i : Instr) :
    decode w = some i ↔ (rowOf i).selects w ∧ operandsAreThoseOf i w := by
  constructor
  · intro h
    obtain ⟨j, hj⟩ : ∃ j, (rowOf j).selects w := by
      by_contra hno
      cases h.symm.trans (decode_of_no_row (not_exists.mp hno))
    obtain rfl : readAs j w = i := Option.some.inj ((decode_of_selects hj).symm.trans h)
    rw [rowOf_readAs]
    exact ⟨hj, operandsAreThoseOf_readAs j w⟩
  · rw [← encode_eq_iff_selects]
    rintro rfl
    exact decode_encode i

/-- Settles O2: both sides say that the word selects the command's row and holds its operands. -/
theorem decodeAndEncodeAgree : Obligations.DecodeAndEncodeAgree := fun w i =>
  (decode_eq_some_iff w i).trans (encode_eq_iff_selects i w).symm

/-! ## O3: the rows -/

/-- The thirteen rows are the rows of the commands. -/
theorem mem_rows_iff {r : Row} : r ∈ rows ↔ ∃ i, rowOf i = r := by
  constructor
  · intro h
    simp only [rows, List.mem_cons, List.not_mem_nil, or_false] at h
    rcases h with h | h | h | h | h | h | h | h | h | h | h | h | h <;> exact ⟨_, h.symm⟩
  · rintro ⟨i, rfl⟩
    cases i <;> simp [rows, rowOf]

theorem no_row_iff {w : Word} : (∀ r ∈ rows, ¬ r.selects w) ↔ ∀ i, ¬ (rowOf i).selects w := by
  simp only [mem_rows_iff, forall_exists_index, forall_apply_eq_imp_iff]

theorem decode_eq_none_iff (w : Word) : decode w = none ↔ ∀ i, ¬ (rowOf i).selects w :=
  ⟨fun h _ hi => Option.some_ne_none _ ((decode_of_selects hi).symm.trans h), decode_of_no_row⟩

/-- A word has one decoding, so the rows it selects are one. -/
theorem rows_disjoint {w : Word} {i j : Instr} (hi : (rowOf i).selects w)
    (hj : (rowOf j).selects w) : rowOf i = rowOf j := by
  have h : readAs i w = readAs j w :=
    Option.some.inj ((decode_of_selects hi).symm.trans (decode_of_selects hj))
  rw [← rowOf_readAs i w, h, rowOf_readAs]

/-- Settles O3, from what a word that selects a row decodes to. -/
theorem opcodeRowsAreDisjoint : Obligations.OpcodeRowsAreDisjoint := by
  refine ⟨decode_eq_some_iff, fun w => (decode_eq_none_iff w).trans no_row_iff.symm, ?_⟩
  intro w r q hr hq
  obtain ⟨i, rfl⟩ := mem_rows_iff.mp hr
  obtain ⟨j, rfl⟩ := mem_rows_iff.mp hq
  exact rows_disjoint

/-! ## O4: the illegal words -/

theorem mem_opcodes_iff (op : Byte) : op ∈ opcodes ↔ ∃ i, opOf i = op := by
  constructor
  · intro h
    simp only [opcodes, List.mem_cons, List.not_mem_nil, or_false] at h
    rcases h with rfl | rfl | rfl | rfl | rfl | rfl | rfl | rfl | rfl | rfl | rfl | rfl | rfl
    exacts [⟨.nop, rfl⟩, ⟨.clr, rfl⟩, ⟨.aesenc .appkey, rfl⟩, ⟨.cmac .appkey, rfl⟩,
      ⟨.xbits false, rfl⟩, ⟨.parse, rfl⟩, ⟨.decode, rfl⟩, ⟨.kdf, rfl⟩, ⟨.derive, rfl⟩,
      ⟨.kstream .appkey, rfl⟩, ⟨.crypt .appkey, rfl⟩, ⟨.cmic, rfl⟩, ⟨.vmic, rfl⟩]
  · rintro ⟨i, rfl⟩
    cases i <;> simp [opOf, opcodes]

theorem opOf_mem_keyedOpcodes (i : Instr) : opOf i ∈ keyedOpcodes ↔ usesKs i = true := by
  cases i <;> simp [opOf, keyedOpcodes, usesKs]

theorem opOf_eq_xbits (i : Instr) : opOf i = 0x20 ↔ usesLe i = true := by
  cases i <;> simp [opOf, usesLe]

/-- A word whose `OP` is a command's is illegal exactly when it does not select the command's row. -/
theorem illegalFields_of_opOf {w : Word} {i : Instr} (h : opOf i = w.extractLsb' 0 8) :
    illegalFields w ↔ ¬ (rowOf i).selects w := by
  have hop : opOf i ∈ opcodes := (mem_opcodes_iff _).mpr ⟨i, rfl⟩
  rw [illegalFields, rowOf_selects_iff, ← h, opOf_mem_keyedOpcodes, ne_eq (opOf i), opOf_eq_xbits]
  simp only [hop, not_true_eq_false, false_or, and_true, not_and_or, Classical.not_imp,
    Bool.not_eq_true, Bool.not_eq_false]
  tauto

/-- The words that select no row, by their fields (R53). -/
theorem no_selects_iff_illegalFields (w : Word) :
    (∀ i, ¬ (rowOf i).selects w) ↔ illegalFields w := by
  constructor
  · intro h
    by_cases hop : w.extractLsb' 0 8 ∈ opcodes
    · obtain ⟨i, hi⟩ := (mem_opcodes_iff _).mp hop
      exact (illegalFields_of_opOf hi).mpr (h i)
    · exact .inl hop
  · exact fun h i hi => (illegalFields_of_opOf (opOf_of_selects hi)).mp h hi

/-- Settles O4: the illegal words by their fields, and what issuing a word without a command does. -/
theorem illegalWordsChangeOnlyStatus : Obligations.IllegalWordsChangeOnlyStatus := by
  refine ⟨fun w => no_row_iff.trans (no_selects_iff_illegalFields w),
    fun w => (decode_eq_none_iff w).trans (no_selects_iff_illegalFields w), fun s w h => ?_⟩
  have hnone : decode w = none := (decode_eq_none_iff w).mpr (no_row_iff.mp h)
  rw [issueWord, hnone]
  rfl

/-! ## O59: the cipher input blocks -/

/-- Byte i of `le(n, v)` is `v[8i+7:8i]` (00_scope.md section 6). -/
theorem leBytes_toNat {m : Nat} (x : BitVec m) (n : Nat) :
    leBytes n x.toNat = (List.range n).map fun i => x.extractLsb' (8 * i) 8 := by
  have hfrom : ∀ v, leBytes n v = (List.range n).map fun i => BitVec.ofNat 8 (v >>> (8 * i)) := by
    induction n with
    | zero => exact fun _ => rfl
    | succ n ih =>
      intro v
      rw [leBytes, ih, List.range_succ_eq_map, List.map_cons, List.map_map]
      simp [Nat.mul_add, Nat.add_comm _ 8, Nat.shiftRight_add, Nat.shiftRight_eq_div_pow v 8]
  exact hfrom x.toNat

/-- Settles O59: each block is a string of sixteen bytes, whose numbers are laid out by `le`. -/
theorem cipherInputBlocksAreLaidOut : Obligations.CipherInputBlocksAreLaidOut := by
  refine ⟨fun tag n i d => ?_, fun tag n e d => ?_, fun c i => ?_, fun c l => ?_⟩
  · rw [kdfBlock, leBytes_toNat, leBytes_toNat, leBytes_toNat, blockBytes_blockOf (by simp)]
    rfl
  · rw [kdfBlock, leBytes_toNat, leBytes_toNat, leBytes_toNat, blockBytes_blockOf (by simp)]
    rfl
  · rw [aBlock, leBytes_toNat, leBytes_toNat, blockBytes_blockOf (by simp)]
    rfl
  · have hlen : BitVec.ofNat 8 l = BitVec.ofNat 8 (l % 256) := by
      apply BitVec.eq_of_toNat_eq
      simp
    rw [b0Block, leBytes_toNat, leBytes_toNat, blockBytes_blockOf (by simp), hlen]
    rfl

/-! ## O1: the example words of R56 -/

/-- Settles O1, word by word. -/
theorem sampleWordsDecode : Obligations.SampleWordsDecode := by
  unfold Obligations.SampleWordsDecode
  decide

end Sys2Proof.Machine
end

/-! # The family `40_aes_ecb.md`: the substitution table, the cipher and AESENC -/

section
namespace Sys2Proof.Machine

open Sys2Proof.Stated

/-! ## O52: the substitution table -/

/-- The inverse of the affine map of R83: the exclusive-or of three rotations and a constant. -/
def affineInv (b : Byte) : Byte := b.rotateLeft 1 ^^^ b.rotateLeft 3 ^^^ b.rotateLeft 6 ^^^ 0x05

/-- The inverse in GF(2^8) that the table holds, 0 for 0: the entry with the affine map undone. -/
def tableInverse (x : Byte) : Byte := affineInv (sbox x)

theorem affine_affineInv (b : Byte) : affine (affineInv b) = b := by
  decide +revert

theorem gmul_tableInverse (x : Byte) (hx : x ≠ 0) : gmul x (tableInverse x) = 1 := by
  decide +revert

theorem tableInverse_zero : tableInverse 0 = 0 := by decide

theorem tableInverse_involutive : Function.Involutive tableInverse := by
  unfold Function.Involutive
  decide

theorem sbox_eq_affine_tableInverse (x : Byte) : sbox x = affine (tableInverse x) :=
  (affine_affineInv (sbox x)).symm

/-- The table's inverse: undo the affine map, then take the inverse in the field. -/
theorem sbox_bijective : Function.Bijective sbox := by
  refine Function.bijective_iff_has_inverse.mpr ⟨fun b => tableInverse (affineInv b), ?_, fun b => ?_⟩
  · exact tableInverse_involutive
  · rw [sbox_eq_affine_tableInverse, tableInverse_involutive, affine_affineInv]

/-- Settles O52: the inverse of a byte is its table entry with the affine map undone. -/
theorem sboxIsTheAffineInverse : Obligations.SboxIsTheAffineInverse := by
  refine ⟨fun x => ⟨tableInverse x, ?_, sbox_eq_affine_tableInverse x⟩, sbox_bijective.injective⟩
  by_cases hx : x = 0
  · exact .inl ⟨hx, hx ▸ tableInverse_zero⟩
  · exact .inr ⟨hx, gmul_tableInverse x hx⟩

/-! ## O51: every part of a round is a bijection

`SubBytes` has the table's inverse, four turns of `ShiftRows` and four mixes of `MixColumns` change
nothing, and an exclusive-or undoes itself. -/

/-- A function whose square is its own inverse is a bijection. -/
theorem bijective_of_involutive_comp_self {α : Type} {f : α → α} (h : Function.Involutive (f ∘ f)) :
    Function.Bijective f :=
  ⟨h.injective.of_comp, h.surjective.of_comp⟩

/-- A bijection of four-byte strings done to each column is one of blocks. -/
theorem columnwise_bijective {f : Quad → Quad} (hf : Function.Bijective f) :
    Function.Bijective fun s : Block => (⟨f s.c0, f s.c1, f s.c2, f s.c3⟩ : Block) := by
  obtain ⟨g, hgf, hfg⟩ := Function.bijective_iff_has_inverse.mp hf
  refine Function.bijective_iff_has_inverse.mpr
    ⟨fun s => ⟨g s.c0, g s.c1, g s.c2, g s.c3⟩, fun s => ?_, fun s => ?_⟩
  · simp only [hgf _]
  · simp only [hfg _]

theorem subQuad_bijective : Function.Bijective subQuad := by
  obtain ⟨g, hgs, hsg⟩ := Function.bijective_iff_has_inverse.mp sbox_bijective
  refine Function.bijective_iff_has_inverse.mpr
    ⟨fun q => ⟨g q.r0, g q.r1, g q.r2, g q.r3⟩, fun q => ?_, fun q => ?_⟩
  · simp only [subQuad, hgs _]
  · simp only [subQuad, hsg _]

theorem subBytes_bijective : Function.Bijective subBytes := columnwise_bijective subQuad_bijective

/-- Two turns rotate row r left by 2r columns, so four turns rotate no row at all. -/
theorem shiftRows_bijective : Function.Bijective shiftRows :=
  bijective_of_involutive_comp_self fun _ => rfl

theorem byte_xor_left_comm (a b c : Byte) : a ^^^ (b ^^^ c) = b ^^^ (a ^^^ c) := by
  rw [← BitVec.xor_assoc, BitVec.xor_comm a b, BitVec.xor_assoc]

/-- Doubling is linear: two reductions by 0x1B cancel. -/
theorem xtime_xor (a b : Byte) : xtime (a ^^^ b) = xtime a ^^^ xtime b := by
  unfold xtime
  rw [BitVec.msb_xor, BitVec.shiftLeft_xor_distrib]
  cases a.msb <;> cases b.msb <;>
    simp [BitVec.xor_assoc, BitVec.xor_comm, byte_xor_left_comm]

theorem gmul_two (a : Byte) : gmul a 2 = xtime a := by simp [gmul, gmulBits]

theorem gmul_three (a : Byte) : gmul a 3 = a ^^^ xtime a := by simp [gmul, gmulBits]

/-- One byte of a mixed column, from the column's bytes in turn from that row on (R87). -/
def mixByte (a b c d : Byte) : Byte := gmul a 2 ^^^ gmul b 3 ^^^ c ^^^ d

/-- Each row of a mixed column is the same mix, begun at that row. -/
theorem mixColumn_eq (q : Quad) : mixColumn q =
    ⟨mixByte q.r0 q.r1 q.r2 q.r3, mixByte q.r1 q.r2 q.r3 q.r0, mixByte q.r2 q.r3 q.r0 q.r1,
      mixByte q.r3 q.r0 q.r1 q.r2⟩ := by
  rw [mixColumn, Quad.mk.injEq]
  refine ⟨rfl, ?_, ?_, ?_⟩ <;> unfold mixByte <;> ac_rfl

/-- Mixing multiplies a column by a polynomial over the field (R87). Of its square, `5 + 4 x^2` is
left, where 4 is `xtime` twice. -/
theorem mixByte_mixByte (a b c d : Byte) :
    mixByte (mixByte a b c d) (mixByte b c d a) (mixByte c d a b) (mixByte d a b c) =
      a ^^^ xtime (xtime (a ^^^ c)) := by
  simp only [mixByte, gmul_two, gmul_three, xtime_xor]
  simp only [BitVec.xor_assoc, BitVec.xor_comm, byte_xor_left_comm, xor_cancel_left]

/-- A column mixed twice. -/
def mixColumnSquare (q : Quad) : Quad :=
  ⟨q.r0 ^^^ xtime (xtime (q.r0 ^^^ q.r2)), q.r1 ^^^ xtime (xtime (q.r1 ^^^ q.r3)),
   q.r2 ^^^ xtime (xtime (q.r2 ^^^ q.r0)), q.r3 ^^^ xtime (xtime (q.r3 ^^^ q.r1))⟩

theorem mixColumn_comp_self : mixColumn ∘ mixColumn = mixColumnSquare := by
  funext q
  simp only [Function.comp_apply, mixColumn_eq, mixByte_mixByte, mixColumnSquare]

/-- Mixing twice keeps the exclusive-or of opposite bytes, so that twice more adds it a second time. -/
theorem mixColumnSquare_involutive : Function.Involutive mixColumnSquare := by
  have hkeep (a c : Byte) : (a ^^^ xtime (xtime (a ^^^ c))) ^^^ (c ^^^ xtime (xtime (c ^^^ a))) =
      a ^^^ c := by
    rw [BitVec.xor_comm c a]
    simp only [BitVec.xor_assoc, byte_xor_left_comm _ c, BitVec.xor_self, BitVec.xor_zero]
    exact BitVec.xor_comm c a
  intro q
  simp only [mixColumnSquare, hkeep]
  simp only [BitVec.xor_assoc, BitVec.xor_self, BitVec.xor_zero]

theorem mixColumn_bijective : Function.Bijective mixColumn :=
  bijective_of_involutive_comp_self (mixColumn_comp_self ▸ mixColumnSquare_involutive)

theorem mixColumns_bijective : Function.Bijective mixColumns :=
  columnwise_bijective mixColumn_bijective

theorem block_xor_bijective (k : Block) : Function.Bijective fun s : Block => s.xor k :=
  Function.Involutive.bijective fun s => block_xor_cancel s k

theorem lastRound_bijective (rk : Block) : Function.Bijective fun s => lastRound s rk :=
  (block_xor_bijective rk).comp (shiftRows_bijective.comp subBytes_bijective)

theorem fullRound_bijective (rk : Block) : Function.Bijective fun s => fullRound s rk :=
  (block_xor_bijective rk).comp
    (mixColumns_bijective.comp (shiftRows_bijective.comp subBytes_bijective))

/-- The rounds under any round keys, by induction on their list. -/
theorem rounds_bijective (keys : List Block) : Function.Bijective fun s => rounds s keys := by
  induction keys with
  | nil => exact Function.bijective_id
  | cons rk rest ih =>
    cases rest with
    | nil => exact lastRound_bijective rk
    | cons rk' rest => exact ih.comp (fullRound_bijective rk)

/-- Settles O51: an exclusive-or with the key and then the rounds, each a bijection. -/
theorem aesEncryptionIsABijection : Obligations.AesEncryptionIsABijection := fun key =>
  (rounds_bijective (keyExpand key).tail).comp (block_xor_bijective key)

/-! ## O9: AESENC -/

theorem aesencResult_blk_none {s : State} (ks : Slot) (hb : s.blk = none) :
    aesencResult ks s = .error .illegalOperand := by
  rw [aesencResult, hb]
  rfl

theorem aesencResult_key_none {s : State} {ks : Slot} {b : Block} (hb : s.blk = some b)
    (hk : s.keys.get ks = none) : aesencResult ks s = .error .keyUnavailable := by
  rw [aesencResult, hb, keyOperand_of_none hk]
  rfl

theorem aesencResult_some {s : State} {ks : Slot} {b k : Block} (hb : s.blk = some b)
    (hk : s.keys.get ks = some k) : aesencResult ks s = .ok (aesEnc k b) := by
  rw [aesencResult, hb, keyOperand_of_some hk]
  rfl

/-- The next state of AESENC when it delivers a block. -/
theorem exec_aesenc_of_ok {ks : Slot} {s : State} {b : Block} (h : aesencResult ks s = .ok b) :
    exec (.aesenc ks) s = .next (ended { s with oblk := some b }) := by
  rw [exec_eq, report, Report.of_ok h]
  rfl

/-- The next state of AESENC when it ends with an error. -/
theorem exec_aesenc_of_error {ks : Slot} {s : State} {e : ErrCode}
    (h : aesencResult ks s = .error e) :
    exec (.aesenc ks) s = .next (failed { s with oblk := none } e.code) := by
  rw [exec_eq, report, Report.of_error h]
  rfl

theorem encode_aesenc_toNat (ks : Slot) :
    (encode (.aesenc ks)).toNat = 0x10 + 256 * ks.bits.toNat := by
  cases ks <;> rfl

/-- Settles O9: the two errors in the order of the operands, and the result. -/
theorem aesencEncryptsBlk : Obligations.AesencEncryptsBlk := fun ks _ =>
  ⟨encode_aesenc_toNat ks,
    fun hb => exec_aesenc_of_error (aesencResult_blk_none ks hb),
    fun _ hb hk => exec_aesenc_of_error (aesencResult_key_none hb hk),
    fun _ _ hb hk => exec_aesenc_of_ok (aesencResult_some hb hk)⟩

end Sys2Proof.Machine
end

/-! # The family `41_cmac.md`: the doubling, the chaining and CMAC -/

section
namespace Sys2Proof.Machine

open Sys2Proof.Stated

/-! ## O53: the doubling

A block and its 128-bit number determine each other: byte j of the block is the byte at bit `8(15 - j)`
of the number. The doubling is then a fact about the bits of a number shifted left by one. -/

/-- Byte j of the string of a number (R101). -/
theorem byteAt_numberBlock (n : BitVec 128) {j : Nat} (hj : j < 16) :
    byteAt (blockBytes (numberBlock n)) j = n.extractLsb' (8 * (15 - j)) 8 := by
  rw [numberBlock, blockBytes_blockOf (by simp), leBytes_toNat]
  simp [byteAt, List.getD, hj]

/-- A block is the string of its number. -/
theorem numberBlock_blockNumber (b : Block) : numberBlock (blockNumber b) = b := by
  have hlt : intBe (blockBytes b) < 2 ^ 128 :=
    (intLe_lt (blockBytes b).reverse).trans_eq <| by
      rw [List.length_reverse, blockBytes_length, show 256 = 2 ^ 8 by decide, ← Nat.pow_mul]
  have hbytes : leBytes 16 (intBe (blockBytes b)) = (blockBytes b).reverse :=
    leBytes_intLe (blockBytes b).reverse
  rw [numberBlock, blockNumber, BitVec.toNat_ofNat, Nat.mod_eq_of_lt hlt, hbytes,
    List.reverse_reverse, blockOf_blockBytes]

/-- Byte j of a block is a byte of its number. -/
theorem byteAt_blockBytes (b : Block) {j : Nat} (hj : j < 16) :
    byteAt (blockBytes b) j = (blockNumber b).extractLsb' (8 * (15 - j)) 8 := by
  rw [← byteAt_numberBlock _ hj, numberBlock_blockNumber]

/-- The bit that the doubling shifts out is the top bit of byte 0. -/
theorem blockNumber_msb (b : Block) : (blockNumber b).msb = b.c0.r0.getLsbD 7 := by
  have hbyte : b.c0.r0 = (blockNumber b).extractLsb' 120 8 := byteAt_blockBytes b (j := 0) (by decide)
  rw [hbyte, BitVec.getLsbD_extractLsb', BitVec.msb_eq_getLsbD_last]
  rfl

/-- The number that the doubling leaves: the shift, and what is exclusive-ored into its last byte. -/
theorem dbl_eq (b : Block) :
    dbl b = numberBlock ((blockNumber b <<< 1) ^^^ (if b.c0.r0.getLsbD 7 then 0x87#128 else 0)) := by
  rw [← blockNumber_msb]
  cases hm : (blockNumber b).msb <;> simp [dbl, hm]

/-- A shift by one moves the top bit of each byte to the byte above it. -/
theorem extractLsb'_shiftLeft_one (n : BitVec 128) {k : Nat} (hk : k + 16 ≤ 128) :
    (n <<< 1).extractLsb' (k + 8) 8 =
      (n.extractLsb' (k + 8) 8 <<< 1) ||| (n.extractLsb' k 8 >>> 7) := by
  refine BitVec.eq_of_getLsbD_eq fun i hi => ?_
  cases i with
  | zero => simp [-BitVec.getLsbD_eq_getElem, show k + 8 < 128 by omega]
  | succ i =>
    have hin : k + 8 + i + 1 < 128 := by omega
    simp [-BitVec.getLsbD_eq_getElem, hin, hi, ← Nat.add_assoc, show i < 8 by omega]

/-- The lowest byte of a number shifted by one takes in a 0. -/
theorem extractLsb'_zero_shiftLeft_one (n : BitVec 128) :
    (n <<< 1).extractLsb' 0 8 = n.extractLsb' 0 8 <<< 1 := by
  refine BitVec.eq_of_getLsbD_eq fun i hi => ?_
  simp [-BitVec.getLsbD_eq_getElem, hi, show i < 128 by omega, show i - 1 < 8 by omega]

/-- What the doubling exclusive-ors reaches the lowest byte only. -/
theorem extractLsb'_reduction {k : Nat} (c : Bool) :
    (if c then 0x87#128 else 0).extractLsb' (k + 8) 8 = 0 := by
  cases c with
  | false => simp
  | true =>
    have hzero : 0x87 >>> (k + 8) = 0 := by
      rw [Nat.add_comm, Nat.shiftRight_add]
      simp
    apply BitVec.eq_of_toNat_eq
    simp [BitVec.extractLsb'_toNat, hzero]

theorem byteAt_dbl_of_lt (b : Block) {j : Nat} (hj : j < 15) :
    byteAt (blockBytes (dbl b)) j =
      (byteAt (blockBytes b) j <<< 1) ||| (byteAt (blockBytes b) (j + 1) >>> 7) := by
  have hpos : 8 * (15 - j) = 8 * (15 - (j + 1)) + 8 := by omega
  rw [dbl_eq, byteAt_numberBlock _ (by omega), byteAt_blockBytes b (by omega),
    byteAt_blockBytes b (by omega), hpos, BitVec.extractLsb'_xor, extractLsb'_reduction,
    extractLsb'_shiftLeft_one _ (by omega)]
  exact BitVec.xor_zero

theorem byteAt_dbl_last (b : Block) :
    byteAt (blockBytes (dbl b)) 15 =
      (byteAt (blockBytes b) 15 <<< 1) ^^^ (if b.c0.r0.getLsbD 7 then 0x87 else 0) := by
  rw [dbl_eq, byteAt_numberBlock _ (by decide), byteAt_blockBytes b (by decide),
    BitVec.extractLsb'_xor, extractLsb'_zero_shiftLeft_one]
  congr 1
  split <;> rfl

/-- Settles O53: the bytes of a number shifted by one, and the reduction in the last of them. -/
theorem dblShiftsBytewise : Obligations.DblShiftsBytewise := fun b =>
  ⟨fun _ hj => byteAt_dbl_of_lt b hj, byteAt_dbl_last b⟩

/-! ## O54: the chaining -/

theorem flatMap_blockBytes_length (bs : List Block) :
    (bs.flatMap blockBytes).length = 16 * bs.length := by
  induction bs with
  | nil => rfl
  | cons b bs ih =>
    rw [List.flatMap_cons, List.length_append, ih, blockBytes_length, List.length_cons]
    omega

/-- The chaining over the complete blocks of a message does not see what follows them. -/
theorem cmacChain_blocks (key : Block) (bs : List Block) (x : Block) (rest : List Byte) :
    cmacChain key bs.length x (bs.flatMap blockBytes ++ rest) =
      bs.foldl (fun x b => aesEnc key (x.xor b)) x := by
  induction bs generalizing x with
  | nil => rfl
  | cons b bs ih =>
    rw [List.length_cons, cmacChain, List.flatMap_cons, List.append_assoc, blockOf_append,
      List.drop_left' (blockBytes_length b), ih, List.foldl_cons]

/-- The number of blocks before the last one. It is 0 for the empty message too. -/
theorem cmacBlocks_sub_one {n l : Nat} (hl : l ≤ 16) (h0 : l = 0 → n = 0) :
    cmacBlocks (16 * n + l) - 1 = n := by
  unfold cmacBlocks blockCount
  omega

/-- The CMAC of complete blocks and a last part, which is empty in the empty message only. -/
theorem cmac_blocks_append (key : Block) (bs : List Block) {last : List Byte}
    (hl : last.length ≤ 16) (h0 : last.length = 0 → bs.length = 0) :
    cmac key (bs.flatMap blockBytes ++ last) =
      aesEnc key ((bs.foldl (fun x b => aesEnc key (x.xor b)) Block.zero).xor
        (cmacLast key last)) := by
  have hn : cmacBlocks (bs.flatMap blockBytes ++ last).length - 1 = bs.length := by
    rw [List.length_append, flatMap_blockBytes_length, cmacBlocks_sub_one hl h0]
  simp only [cmac, hn, cmacChain_blocks, List.drop_left' (flatMap_blockBytes_length bs)]

theorem zero_xor_block (b : Block) : Block.zero.xor b = b := by
  simp [Block.xor, Quad.xor, Block.zero, Quad.zero]

/-- Settles O54: both messages are complete blocks, in the second none, and a last part. -/
theorem cmacChainsBlocks : Obligations.CmacChainsBlocks := by
  refine ⟨fun key bs last hpos hl => ?_, fun key => ?_⟩
  · exact cmac_blocks_append key bs hl (by omega)
  · have hempty := cmac_blocks_append key [] (last := []) (by simp) (by simp)
    rw [List.foldl_nil, zero_xor_block] at hempty
    exact hempty

/-! ## O10: CMAC -/

theorem cmacResult_key_none {s : State} {ks : Slot} (hk : s.keys.get ks = none) :
    cmacResult ks s = .error .keyUnavailable := by
  rw [cmacResult, keyOperand_of_none hk]
  rfl

theorem cmacResult_some {s : State} {ks : Slot} {k : Block} (hk : s.keys.get ks = some k) :
    cmacResult ks s = .ok (cmac k (frame s)) := by
  rw [cmacResult, keyOperand_of_some hk]
  rfl

theorem encode_cmac_toNat (ks : Slot) :
    (encode (.cmac ks)).toNat = 0x11 + 256 * ks.bits.toNat := by
  cases ks <;> rfl

/-- Settles O10: the one operand of CMAC besides `IBUF` is the key. -/
theorem cmacAuthenticatesIbuf : Obligations.CmacAuthenticatesIbuf := by
  refine fun ks s => ⟨encode_cmac_toNat ks, fun hk => ?_, fun k hk => ?_⟩
  · rw [exec_eq, report, Report.of_error (cmacResult_key_none hk)]
    rfl
  · rw [exec_eq, report, Report.of_ok (cmacResult_some hk)]
    rfl

end Sys2Proof.Machine
end

/-! # The family `42_bitfield.md`: the bitfield extractor and XBITS

A span is read bit by bit from its front, and most facts are shown by taking the bits off at its end,
where the value read so far is doubled and takes one bit in. -/

section
namespace Sys2Proof.Machine

open Sys2Proof.Stated

/-! ## What the extractor can answer -/

theorem extractBits_of_le {b : List Byte} {a o w : Nat} (h : 8 * a + o + w ≤ 8 * b.length) :
    extractBits b a o w = some (bitsFrom b w (8 * a + o) 0) :=
  if_neg (Nat.not_lt.mpr h)

theorem extractBits_of_gt {b : List Byte} {a o w : Nat} (h : 8 * b.length < 8 * a + o + w) :
    extractBits b a o w = none :=
  if_pos h

theorem extractBitsLe_of_le {b : List Byte} {a n : Nat} (h : a + n ≤ b.length) :
    extractBitsLe b a n = some (intLe (slice b a n)) :=
  if_neg (Nat.not_lt.mpr h)

theorem extractBitsLe_of_gt {b : List Byte} {a n : Nat} (h : b.length < a + n) :
    extractBitsLe b a n = none :=
  if_pos h

/-! ## The bits of a span -/

/-- A span read in two parts. -/
theorem bitsFrom_add (b : List Byte) (m n p v : Nat) :
    bitsFrom b (m + n) p v = bitsFrom b n (p + m) (bitsFrom b m p v) := by
  induction m generalizing p v with
  | zero => rw [Nat.zero_add, Nat.add_zero, bitsFrom]
  | succ m ih => rw [Nat.succ_add, bitsFrom, ih, bitsFrom, Nat.succ_add_eq_add_succ]

/-- The last bit of a span is the least significant one of its value. -/
theorem bitsFrom_succ_last (b : List Byte) (n p v : Nat) :
    bitsFrom b (n + 1) p v = 2 * bitsFrom b n p v + (bitAt b (p + n)).toNat :=
  bitsFrom_add b n 1 p v

/-- The value read before a span stands above the value of the span. -/
theorem bitsFrom_eq_add (b : List Byte) (n p v : Nat) :
    bitsFrom b n p v = 2 ^ n * v + bitsFrom b n p 0 := by
  induction n with
  | zero => simp [bitsFrom]
  | succ n ih =>
    rw [bitsFrom_succ_last, bitsFrom_succ_last, ih, Nat.pow_succ', Nat.mul_add, Nat.mul_assoc,
      Nat.add_assoc]

theorem bitsFrom_lt (b : List Byte) (n p : Nat) : bitsFrom b n p 0 < 2 ^ n := by
  induction n with
  | zero => exact Nat.one_pos
  | succ n ih =>
    have hbit := (bitAt b (p + n)).toNat_le
    rw [bitsFrom_succ_last, Nat.pow_succ']
    omega

/-! ## O55: the start of a span -/

/-- Settles O55: the start is the sum of the offsets, and a span of w bits has a value of w bits. -/
theorem extractBitsDependsOnTheStart : Obligations.ExtractBitsDependsOnTheStart := by
  refine ⟨fun b a k o w => ?_, fun b a o w v h => ?_⟩
  · have hstart : 8 * a + (8 * k + o) = 8 * (a + k) + o := by omega
    simp only [extractBits, hstart]
  · rcases Nat.lt_or_ge (8 * b.length) (8 * a + o + w) with hgt | hle
    · rw [extractBits_of_gt hgt] at h
      cases h
    · rw [extractBits_of_le hle] at h
      cases h
      exact bitsFrom_lt b w _

/-! ## O57: a field of a byte -/

/-- A field of a byte is the field one bit shorter, above its lowest bit. -/
theorem extractLsb'_succ_toNat (x : Byte) (lo n : Nat) :
    (x.extractLsb' lo (n + 1)).toNat =
      2 * (x.extractLsb' (lo + 1) n).toNat + (x.getLsbD lo).toNat := by
  have hbit : (x.getLsbD lo).toNat = (x.toNat >>> lo) % 2 := by
    rw [← BitVec.testBit_toNat, Nat.toNat_testBit, Nat.shiftRight_eq_div_pow]
  rw [BitVec.extractLsb'_toNat, BitVec.extractLsb'_toNat, hbit, Nat.pow_succ', Nat.mod_mul,
    Nat.shiftRight_succ, Nat.add_comm]

/-- Bit `lo` of byte k stands at position `8k + 7 - lo` (R40). -/
theorem bitAt_in_byte (b : List Byte) (k : Nat) {lo : Nat} (hlo : lo < 8) :
    bitAt b (8 * k + (7 - lo)) = (byteAt b k).getLsbD lo := by
  have hbyte : (8 * k + (7 - lo)) / 8 = k := by omega
  have hpos : 7 - (8 * k + (7 - lo)) % 8 = lo := by omega
  rw [bitAt, hbyte, hpos]

/-- The bits of a span inside byte k, by taking bits off at its end. -/
theorem bitsFrom_in_byte (b : List Byte) (k n : Nat) {lo : Nat} (h : lo + n ≤ 8) :
    bitsFrom b n (8 * k + (8 - lo - n)) 0 = ((byteAt b k).extractLsb' lo n).toNat := by
  induction n generalizing lo with
  | zero => simp [bitsFrom, BitVec.toNat_of_zero_length]
  | succ n ih =>
    have hfirst : 8 - lo - (n + 1) = 8 - (lo + 1) - n := by omega
    have hlast : 8 * k + (8 - (lo + 1) - n) + n = 8 * k + (7 - lo) := by omega
    rw [bitsFrom_succ_last, hfirst, ih (by omega), hlast, bitAt_in_byte b k (by omega),
      extractLsb'_succ_toNat]

/-- Settles O57: the field is a span that stays inside byte b. -/
theorem bitFieldsAreExtractions : Obligations.BitFieldsAreExtractions := by
  intro f b hi lo hb hlohi hhi
  have hpos : 7 - hi = 8 - lo - (hi - lo + 1) := by omega
  rw [extractBits_of_le (by omega), hpos, bitsFrom_in_byte f b _ (by omega)]

/-! ## O56: whole bytes -/

/-- Reading all eight bits of a byte. -/
theorem bitsFrom_byte (b : List Byte) (k v : Nat) :
    bitsFrom b 8 (8 * k) v = (byteAt b k).toNat + 256 * v := by
  have hbyte : bitsFrom b 8 (8 * k) 0 = ((byteAt b k).extractLsb' 0 8).toNat :=
    bitsFrom_in_byte b k 8 (lo := 0) (Nat.le_refl 8)
  rw [bitsFrom_eq_add, hbyte, BitVec.extractLsb'_eq_self, Nat.add_comm]
  rfl

theorem slice_succ {b : List Byte} {a n : Nat} (h : a + n < b.length) :
    slice b a (n + 1) = slice b a n ++ [byteAt b (a + n)] := by
  have hn : n < (b.drop a).length := by
    rw [List.length_drop]
    omega
  rw [slice, slice, List.take_succ_eq_append_getElem hn, List.getElem_drop, byteAt,
    List.getD_eq_getElem _ _ h]

/-- A span of whole bytes is read as a big-endian integer (R110). -/
theorem bitsFrom_bytes {b : List Byte} {a n : Nat} (h : a + n ≤ b.length) :
    bitsFrom b (8 * n) (8 * a) 0 = intBe (slice b a n) := by
  induction n with
  | zero => rfl
  | succ n ih =>
    rw [Nat.mul_succ, bitsFrom_add, ih (by omega), ← Nat.mul_add, bitsFrom_byte, slice_succ h, intBe,
      intBe, List.reverse_append]
    rfl

/-- The bits of a reversed string are its little-endian integer. -/
theorem extractBits_reverse (b : List Byte) :
    extractBits b.reverse 0 0 (8 * b.length) = some (intLe b) := by
  have hall : slice b.reverse 0 b.length = b.reverse := by
    rw [← List.length_reverse]
    exact List.take_length
  have hbits : bitsFrom b.reverse (8 * b.length) (8 * 0) 0 = intBe (slice b.reverse 0 b.length) :=
    bitsFrom_bytes (by simp)
  rw [extractBits_of_le (by simp), Nat.add_zero, hbits, hall, intBe, List.reverse_reverse]

/-- A slice inside a string has the length asked for. -/
theorem slice_length_of_le {b : List Byte} {a n : Nat} (h : a + n ≤ b.length) :
    (slice b a n).length = n := by
  rw [slice_length]
  omega

/-- Settles O56: the slice has n bytes, and the bits of its reverse are its integer. -/
theorem littleEndianExtractionReverses : Obligations.LittleEndianExtractionReverses := by
  refine fun b a n => ⟨fun hle => ?_, extractBitsLe_of_gt⟩
  have hbits := extractBits_reverse (slice b a n)
  rw [slice_length_of_le hle] at hbits
  exact ⟨extractBitsLe_of_le hle, (extractBitsLe_of_le hle).trans hbits.symm⟩

/-! ## O11: XBITS -/

/-- The value of a span as R112 defines it for each form. -/
def spanInt (le : Bool) (b : List Byte) (x : Span) : Nat :=
  if le then intLe (slice b x.byteOff (x.width / 8))
  else bitsFrom b x.width (8 * x.byteOff + x.bitOff) 0

/-- What check 3 of R112 leaves: with `LE` the span is one of whole bytes. -/
def Span.aligned (le : Bool) (x : Span) : Prop := le = true → x.bitOff = 0 ∧ x.width % 8 = 0

/-- The span of `XBITS` ends inside the string. -/
def Span.fits (x : Span) (b : List Byte) : Prop := 8 * x.byteOff + x.bitOff + x.width ≤ 8 * b.length

theorem spanValue_of_fits {le : Bool} {b : List Byte} {x : Span} (hx : x.aligned le)
    (hfit : x.fits b) : spanValue le b x = .ok (spanInt le b x) := by
  unfold Span.fits at hfit
  cases le with
  | false => simp [spanValue, spanInt, extractBits_of_le hfit]
  | true =>
    obtain ⟨hbit, hwidth⟩ := hx rfl
    have hle : x.byteOff + x.width / 8 ≤ b.length := by omega
    simp [spanValue, spanInt, extractBitsLe_of_le hle]

theorem spanValue_of_not_fits {le : Bool} {b : List Byte} {x : Span} (hx : x.aligned le)
    (hfit : ¬ x.fits b) : spanValue le b x = .error .rangeError := by
  unfold Span.fits at hfit
  cases le with
  | false => simp [spanValue, extractBits_of_gt (Nat.lt_of_not_le hfit)]
  | true =>
    obtain ⟨hbit, hwidth⟩ := hx rfl
    have hgt : b.length < x.byteOff + x.width / 8 := by omega
    simp [spanValue, extractBitsLe_of_gt hgt]

/-- The value of a span fits its width. -/
theorem spanInt_lt {le : Bool} {b : List Byte} {x : Span} (hx : x.aligned le) (hfit : x.fits b) :
    spanInt le b x < 2 ^ x.width := by
  cases le with
  | false => exact bitsFrom_lt b x.width _
  | true =>
    obtain ⟨hbit, hwidth⟩ := hx rfl
    unfold Span.fits at hfit
    calc intLe (slice b x.byteOff (x.width / 8))
        < 256 ^ (slice b x.byteOff (x.width / 8)).length := intLe_lt _
      _ = (2 ^ 8) ^ (x.width / 8) := by rw [slice_length_of_le (by omega)]; rfl
      _ = 2 ^ x.width := by rw [← Nat.pow_mul, Nat.mul_div_cancel' (Nat.dvd_of_mod_eq_zero hwidth)]

theorem spanOperand_none {s : State} (le : Bool)
    (h : s.xByteoff = none ∨ s.xBitoff = none ∨ s.xWidth = none) :
    spanOperand le s = .error .illegalOperand := by
  unfold spanOperand
  obtain ⟨a, ha, ha'⟩ | ⟨-, ha'⟩ := operand_cases s.xByteoff
  · obtain ⟨b, hb, hb'⟩ | ⟨-, hb'⟩ := operand_cases s.xBitoff
    · have hw : s.xWidth = none := by simpa [ha, hb] using h
      rw [ha', hb', hw]
      rfl
    · rw [ha', hb']
      rfl
  · rw [ha']
    rfl

section
variable {le : Bool} {s : State} {a b : BitVec 16} {w : BitVec 8} (ha : s.xByteoff = some a)
  (hb : s.xBitoff = some b) (hw : s.xWidth = some w)
include ha hb hw

/-- The checks 2 and 3 of R112, the three operand registers being valid. -/
theorem spanOperand_some : spanOperand le s =
    if w.toNat > 64 then .error .illegalOperand
    else if le && (b.toNat != 0 || w.toNat % 8 != 0) then .error .illegalOperand
    else .ok ⟨a.toNat, b.toNat, w.toNat⟩ := by
  rw [spanOperand, ha, hb, hw]
  rfl

theorem spanOperand_wide (h : w.toNat > 64) : spanOperand le s = .error .illegalOperand := by
  rw [spanOperand_some ha hb hw, if_pos h]

theorem spanOperand_unaligned (h64 : w.toNat ≤ 64) (hle : le = true)
    (h : b ≠ 0 ∨ w.toNat % 8 ≠ 0) : spanOperand le s = .error .illegalOperand := by
  have hcheck : (le && (b.toNat != 0 || w.toNat % 8 != 0)) = true := by
    simpa [hle, BitVec.toNat_eq] using h
  rw [spanOperand_some ha hb hw, if_neg (Nat.not_lt.mpr h64), if_pos hcheck]

theorem spanOperand_aligned (h64 : w.toNat ≤ 64) (h : le = true → b = 0 ∧ w.toNat % 8 = 0) :
    spanOperand le s = .ok ⟨a.toNat, b.toNat, w.toNat⟩ := by
  have hcheck : ¬ (le && (b.toNat != 0 || w.toNat % 8 != 0)) = true := by
    cases le with
    | false => simp
    | true => simp [h rfl]
  rw [spanOperand_some ha hb hw, if_neg (Nat.not_lt.mpr h64), if_neg hcheck]

end

/-- The next state of XBITS when it ends with an error. -/
theorem exec_xbits_of_error {le : Bool} {s : State} {e : ErrCode} (h : xbitsResult le s = .error e) :
    exec (.xbits le) s = .next (failed { s with xVal := none } e.code) := by
  rw [exec_eq, report, Report.of_error h]
  rfl

/-- XBITS fails with the first operand check that fails. -/
theorem exec_xbits_of_spanOperand_error {le : Bool} {s : State} {e : ErrCode}
    (h : spanOperand le s = .error e) :
    exec (.xbits le) s = .next (failed { s with xVal := none } e.code) := by
  refine exec_xbits_of_error ?_
  rw [xbitsResult, h]
  rfl

/-- Past the operand checks the result is the value of the span. -/
theorem xbitsResult_of_spanOperand_ok {le : Bool} {s : State} {x : Span}
    (h : spanOperand le s = .ok x) :
    xbitsResult le s = (spanValue le (frame s) x).map (BitVec.ofNat 64) := by
  rw [xbitsResult, h]
  rfl

/-- XBITS with good operands and a span past the end of `IBUF`. -/
theorem exec_xbits_of_not_fits {le : Bool} {s : State} {x : Span} (h : spanOperand le s = .ok x)
    (hx : x.aligned le) (hfit : ¬ x.fits (frame s)) :
    exec (.xbits le) s = .next (failed { s with xVal := none } 1) := by
  refine exec_xbits_of_error (e := .rangeError) ?_
  rw [xbitsResult_of_spanOperand_ok h, spanValue_of_not_fits hx hfit]
  rfl

/-- XBITS with good operands and a span inside `IBUF`. -/
theorem exec_xbits_of_fits {le : Bool} {s : State} {x : Span} (h : spanOperand le s = .ok x)
    (hx : x.aligned le) (hfit : x.fits (frame s)) :
    exec (.xbits le) s =
      .next (ended { s with xVal := some (BitVec.ofNat 64 (spanInt le (frame s) x)) }) := by
  have hresult : xbitsResult le s = .ok (BitVec.ofNat 64 (spanInt le (frame s) x)) := by
    rw [xbitsResult_of_spanOperand_ok h, spanValue_of_fits hx hfit]
    rfl
  rw [exec_eq, report, Report.of_ok hresult]
  rfl

theorem encode_xbits (le : Bool) : encode (.xbits le) = if le then 0x820 else 0x020 := by
  cases le <;> rfl

theorem span_aligned_iff {le : Bool} {a : Nat} {b : BitVec 16} {w : Nat} :
    Span.aligned le ⟨a, b.toNat, w⟩ ↔ (le = true → b = 0 ∧ w % 8 = 0) := by
  simp [Span.aligned, BitVec.toNat_eq]

theorem span_fits_frame_iff {s : State} {x : Span} :
    x.fits (frame s) ↔ 8 * x.byteOff + x.bitOff + x.width ≤ 8 * s.ibuf.size := by
  simp [Span.fits, frame, Memory.size]

/-- Settles O11: the operand checks in their order, then the range check and the value. -/
theorem xbitsExtractsASpan : Obligations.XbitsExtractsASpan := by
  refine fun le s => ⟨encode_xbits le,
    fun hnone => exec_xbits_of_spanOperand_error (spanOperand_none le hnone),
    fun a b w ha hb hw =>
      ⟨fun hwide => exec_xbits_of_spanOperand_error (spanOperand_wide ha hb hw hwide),
        fun h64 hle h => exec_xbits_of_spanOperand_error (spanOperand_unaligned ha hb hw h64 hle h),
        fun h64 h hgt => ?range, fun h64 h hle => ?value⟩⟩
  case range =>
    exact exec_xbits_of_not_fits (spanOperand_aligned ha hb hw h64 h) (span_aligned_iff.mpr h)
      fun hfit => absurd (span_fits_frame_iff.mp hfit) (Nat.not_le.mpr hgt)
  case value =>
    have hx : Span.aligned le ⟨a.toNat, b.toNat, w.toNat⟩ := span_aligned_iff.mpr h
    have hfit : Span.fits ⟨a.toNat, b.toNat, w.toNat⟩ (frame s) := span_fits_frame_iff.mpr hle
    exact ⟨_, exec_xbits_of_fits (spanOperand_aligned ha hb hw h64 h) hx hfit, spanInt_lt hx hfit,
      rfl⟩

end Sys2Proof.Machine
end

/-! # The family `43_frame_parser.md`: PARSE, and how PARSE and DECODE fail

The frame alone decides the layout, so the parser is described frame by frame first, in the words of the
statements; `exec_parse_of_frame` and its neighbours then give each command's whole next state. -/

section
namespace Sys2Proof.Machine

open Sys2Proof.Stated

/-! ## The version -/

theorem verOperand_of_usable {s : State} (h : usable s.ver) : ∃ ver, verOperand s = .ok ver := by
  unfold verOperand
  obtain h | h | h := h <;> rw [h] <;> exact ⟨_, rfl⟩

theorem verOperand_of_not_usable {s : State} (h : ¬ usable s.ver) :
    verOperand s = .error .illegalOperand := by
  unfold verOperand
  cases hv : s.ver with
  | none => rfl
  | some v =>
    simp only [usable, hv, Option.some.injEq, not_or] at h
    obtain ⟨h0, h1, h2⟩ := h
    have hnone : versionOf v = none := by simp only [versionOf, h0, h1, h2, if_false]
    rw [Option.bind_some, hnone, operand_none]

theorem rootSlot_eq_rootOf {s : State} {ver : Version} (h : verOperand s = .ok ver) :
    rootSlot ver = rootOf s.ver := by
  have h11 := verOperand_is11 h
  cases ver <;> simp_all [rootSlot, rootOf]

/-! ## The parser, layout by layout -/

/-- The MHDR of a frame (R59). -/
def headerOf (b : List Byte) : Mhdr := mhdrOf (byteAt b 0)

theorem headerOf_mtype (b : List Byte) : (headerOf b).mtype = mtype b := rfl

/-- The four kinds of frame that R121 tells apart by MType. -/
theorem mtype_cases (b : List Byte) :
    mtype b = 0 ∨ mtype b = 1 ∨ isData b ∨ mtype b = 6 ∨ mtype b = 7 := by
  unfold isData
  generalize mtype b = v
  decide +revert

section
variable {b : List Byte} {ver : Version} {fcnthi : BitVec 16} {root : Option Block}

theorem parseFrame_of_nil (h : b.length = 0) : parseFrame b ver fcnthi root = .malformed none :=
  if_pos h

theorem parseFrame_of_short (h0 : b.length ≠ 0) (h : b.length < 12) :
    parseFrame b ver fcnthi root = .malformed (some (headerOf b)) :=
  (if_neg h0).trans (if_pos h)

/-- The branch of the parser that an MType selects (R121). -/
def parseBranch (b : List Byte) (ver : Version) (fcnthi : BitVec 16) (root : Option Block) :
    MType → ParseResult
  | .joinRequest => parseJoinRequest (headerOf b) b
  | .joinAccept => parseJoinAccept (headerOf b) ver root b
  | .unconfirmedDataUp | .confirmedDataUp => parseData (headerOf b) 0 fcnthi b
  | .unconfirmedDataDown | .confirmedDataDown => parseData (headerOf b) 1 fcnthi b
  | .rfu | .proprietary => .frame (headerOf b) .unstructured

theorem parseFrame_eq_parseBranch (h : 12 ≤ b.length) :
    parseFrame b ver fcnthi root = parseBranch b ver fcnthi root (mtypeOf (mtype b)) := by
  have h0 : b.length ≠ 0 := by omega
  rw [parseFrame, if_neg h0, if_neg (Nat.not_lt.mpr h), ← headerOf, headerOf_mtype]
  cases mtypeOf (mtype b) <;> rfl

theorem parseFrame_mtype_zero (h : 12 ≤ b.length) (hm : mtype b = 0) :
    parseFrame b ver fcnthi root = parseJoinRequest (headerOf b) b := by
  rw [parseFrame_eq_parseBranch h, hm]
  rfl

theorem parseFrame_mtype_one (h : 12 ≤ b.length) (hm : mtype b = 1) :
    parseFrame b ver fcnthi root = parseJoinAccept (headerOf b) ver root b := by
  rw [parseFrame_eq_parseBranch h, hm]
  rfl

/-- The direction of a data frame is that of its MType (R66). -/
theorem parseFrame_isData (h : 12 ≤ b.length) (hd : isData b) :
    parseFrame b ver fcnthi root = parseData (headerOf b) (direction b) fcnthi b := by
  rw [parseFrame_eq_parseBranch h, direction]
  obtain hm | hm | hm | hm := hd <;> rw [hm] <;> rfl

theorem parseFrame_opaque (h : 12 ≤ b.length) (hm : mtype b = 6 ∨ mtype b = 7) :
    parseFrame b ver fcnthi root = .frame (headerOf b) .unstructured := by
  rw [parseFrame_eq_parseBranch h]
  obtain hm | hm := hm <;> rw [hm] <;> rfl

/-! ## Malformed frames, and only they -/

/-- A frame that fails a check of R122 is malformed, with the MHDR of its byte 0 if it has one. -/
theorem parseFrame_of_malformed (h : malformed b) :
    ∃ m, parseFrame b ver fcnthi root = .malformed m ∧ Fields.malformed m = malformedFields b := by
  by_cases h0 : b.length = 0
  · exact ⟨none, parseFrame_of_nil h0, (if_pos h0).symm⟩
  refine ⟨some (headerOf b), ?_, (if_neg h0).symm⟩
  by_cases h12 : b.length < 12
  · exact parseFrame_of_short h0 h12
  have hle := Nat.le_of_not_lt h12
  obtain h | ⟨hm, hl⟩ | ⟨hm, h17, h33⟩ | ⟨hd, hl⟩ := h
  · exact absurd h h12
  · rw [parseFrame_mtype_zero hle hm]
    exact if_neg hl
  · rw [parseFrame_mtype_one hle hm]
    exact if_neg (not_or.mpr ⟨h17, h33⟩)
  · rw [parseFrame_isData hle hd]
    exact if_pos hl

theorem parseFrame_joinRequest (hm : mtype b = 0) (hl : b.length = 23) :
    parseFrame b ver fcnthi root = .frame (headerOf b) (.joinRequest (joinRequestOf b)) := by
  rw [parseFrame_mtype_zero (by omega) hm]
  exact if_pos hl

/-- The body of a Join-Accept: recovered with the root key, else the ciphertext (R126, R127). -/
def joinAcceptBody (ver : Version) (root : Option Block) (b : List Byte) : Body :=
  match root with
  | some k => .joinAccept (joinAcceptOf ver (jaPlain k (slice b 1 (b.length - 1))))
  | none => .joinAcceptEnc (slice b 1 (b.length - 1))

theorem parseFrame_joinAccept (hm : mtype b = 1) (hl : b.length = 17 ∨ b.length = 33) :
    parseFrame b ver fcnthi root = .frame (headerOf b) (joinAcceptBody ver root b) := by
  rw [parseFrame_mtype_one (by omega) hm]
  cases root <;> exact if_pos hl

theorem parseFrame_dataFrame (hd : isData b) (hl : 12 + foptslen b ≤ b.length) :
    parseFrame b ver fcnthi root =
      .frame (headerOf b) (.data (dataFrameOf (direction b) fcnthi b)) := by
  rw [parseFrame_isData (by omega) hd]
  exact if_neg (Nat.not_lt.mpr hl)

/-- A frame that passes every check of R122 parses. -/
theorem parseFrame_of_not_malformed (h : ¬ malformed b) :
    ∃ body, parseFrame b ver fcnthi root = .frame (headerOf b) body := by
  simp only [malformed, not_or, not_and, not_not, Nat.not_lt] at h
  obtain ⟨h12, h23, h33, hdata⟩ := h
  obtain hm | hm | hd | hm := mtype_cases b
  · exact ⟨_, parseFrame_joinRequest hm (h23 hm)⟩
  · exact ⟨_, parseFrame_joinAccept hm (or_iff_not_imp_left.mpr (h33 hm))⟩
  · exact ⟨_, parseFrame_dataFrame hd (hdata hd)⟩
  · exact ⟨_, parseFrame_opaque h12 hm⟩

end

/-! ## The next state of PARSE and of a DECODE that fails -/

section
variable {s : State} {ver : Version} {m : Mhdr} {b : Body}

theorem exec_parse_of_frame (hv : verOperand s = .ok ver) (h : parseInput ver s = .frame m b) :
    exec .parse s = .next (ended { s with
      f := Fields.ofFrame m b, obuf := Memory.ofBytes b.output }) := by
  rw [exec_eq, report, parseReport, hv]
  dsimp only
  rw [h]
  rfl

/-- PARSE of a frame that parses alike in every version and with every root key. -/
theorem exec_parse_of_parseFrame (hu : usable s.ver)
    (h : ∀ ver root, parseFrame (frame s) ver s.fcnthi root = .frame m b) :
    exec .parse s = .next (ended { s with
      f := Fields.ofFrame m b, obuf := Memory.ofBytes b.output }) := by
  obtain ⟨ver, hv⟩ := verOperand_of_usable hu
  exact exec_parse_of_frame hv (h ver _)

/-- On a malformed frame PARSE and DECODE report the same registers and no output. -/
theorem reports_of_malformed (hu : usable s.ver) (h : malformed (frame s)) :
    parseReport s = ⟨.parsed (malformedFields (frame s)) [], some .malformedFrame⟩ ∧
      decodeReport s =
        ⟨.decoded (malformedFields (frame s)) [] MicRegs.empty, some .malformedFrame⟩ := by
  obtain ⟨ver, hv⟩ := verOperand_of_usable hu
  obtain ⟨m, hm, hf⟩ := parseFrame_of_malformed (ver := ver) (fcnthi := s.fcnthi)
    (root := s.keys.get (rootSlot ver)) h
  have hp : parseInput ver s = .malformed m := hm
  rw [← hf]
  constructor
  · rw [parseReport, hv]
    dsimp only
    rw [hp]
  · rw [decodeReport, hv]
    dsimp only
    rw [hp]

/-- Without a version PARSE and DECODE report no register and no output. -/
theorem reports_of_not_usable (hu : ¬ usable s.ver) :
    parseReport s = ⟨.parsed Fields.empty [], some .illegalOperand⟩ ∧
      decodeReport s = ⟨.decoded Fields.empty [] MicRegs.empty, some .illegalOperand⟩ := by
  rw [parseReport, decodeReport, verOperand_of_not_usable hu]
  exact ⟨rfl, rfl⟩

theorem exec_parse_of_malformed (hu : usable s.ver) (h : malformed (frame s)) :
    exec .parse s = .next (failed { s with f := malformedFields (frame s), obuf := [] } 2) := by
  rw [exec_eq, report, (reports_of_malformed hu h).1]
  rfl

theorem exec_decode_of_malformed (hu : usable s.ver) (h : malformed (frame s)) :
    exec .decode s = .next (failed { s with
      f := malformedFields (frame s), obuf := [], mic := MicRegs.empty } 2) := by
  rw [exec_eq, report, (reports_of_malformed hu h).2]
  rfl

theorem exec_parse_of_not_usable (hu : ¬ usable s.ver) :
    exec .parse s = .next (failed { s with f := Fields.empty, obuf := [] } 6) := by
  rw [exec_eq, report, (reports_of_not_usable hu).1]
  rfl

theorem exec_decode_of_not_usable (hu : ¬ usable s.ver) :
    exec .decode s =
      .next (failed { s with f := Fields.empty, obuf := [], mic := MicRegs.empty } 6) := by
  rw [exec_eq, report, (reports_of_not_usable hu).2]
  rfl

end

/-- Settles O29, from the two ways in which PARSE and DECODE fail. -/
theorem frameCommandsNeedAVersionAndALayout : Obligations.FrameCommandsNeedAVersionAndALayout :=
  fun _ => ⟨fun hu => ⟨exec_parse_of_not_usable hu, exec_decode_of_not_usable hu⟩,
    exec_decode_of_malformed⟩

/-! ## O12: the length checks -/

theorem Body.kind_ne_zero (b : Body) : b.kind ≠ 0 := by
  cases b <;> simp [Body.kind]

@[simp] theorem Fields.ofFrame_kind (m : Mhdr) (b : Body) :
    (Fields.ofFrame m b).kind = some b.kind := by cases b <;> rfl

@[simp] theorem Fields.ofFrame_mtype (m : Mhdr) (b : Body) :
    (Fields.ofFrame m b).mtype = some m.mtype := by cases b <;> rfl

/-- Settles O12: a frame fails a check of R122 or parses, to a body whose kind is not 0. -/
theorem parseRejectsExactlyMalformedFrames : Obligations.ParseRejectsExactlyMalformedFrames := by
  refine fun s hu => ⟨exec_parse_of_malformed hu, fun h => ?_⟩
  obtain ⟨ver, hv⟩ := verOperand_of_usable hu
  obtain ⟨b, hb⟩ := parseFrame_of_not_malformed h
  exact ⟨_, exec_parse_of_frame hv hb, rfl, Fields.ofFrame_mtype _ b,
    ⟨b.kind, Fields.ofFrame_kind _ b, b.kind_ne_zero⟩, rfl⟩

/-! ## O13, O16: Join-Requests and frames without a structure -/

/-- Settles O13: the registers of the Join-Request body are the fields of R60. -/
theorem parseSplitsJoinRequests : Obligations.ParseSplitsJoinRequests :=
  fun _ hu hl hm => exec_parse_of_parseFrame hu fun _ _ => parseFrame_joinRequest hm hl

/-- Settles O16: the body has no registers of its own. -/
theorem parseReportsOpaqueFrames : Obligations.ParseReportsOpaqueFrames :=
  fun _ hu hm hl => exec_parse_of_parseFrame hu fun _ _ => parseFrame_opaque hl hm

/-! ## O15: data frames -/

/-- FCnt32 as a number: the two halves do not overlap (R65). -/
theorem fcnt32Of_ofNat (hi : BitVec 16) {n : Nat} (h : n < 2 ^ 16) :
    fcnt32Of hi (BitVec.ofNat 16 n) = BitVec.ofNat 32 (hi.toNat * 65536 + n) := by
  apply BitVec.eq_of_toNat_eq
  have hlt := hi.isLt
  rw [fcnt32Of, BitVec.toNat_append, BitVec.toNat_ofNat, BitVec.toNat_ofNat, Nat.mod_eq_of_lt h,
    ← Nat.shiftLeft_add_eq_or_of_lt h, Nat.shiftLeft_eq]
  omega

theorem wireField_two_lt (b : List Byte) (a : Nat) : wireField b a 2 < 2 ^ 16 := by
  have hlen : (slice b a 2).length ≤ 2 := List.length_take_le _ _
  calc wireField b a 2 < 256 ^ (slice b a 2).length := intLe_lt _
    _ ≤ 256 ^ 2 := Nat.pow_le_pow_right (by decide) hlen
    _ = 2 ^ 16 := rfl

/-- A direction that is not up is down (R66). -/
theorem fctrlFpending_eq (dir : BitVec 1) (x : Byte) :
    fctrlFpending dir x = if dir = 1 then some (x.extractLsb' 4 1) else none := by
  obtain rfl | rfl := BitVec.eq_zero_or_eq_one dir <;> rfl

section
variable {b : List Byte} (dir : BitVec 1) (fcnthi : BitVec 16)

theorem dataFrameOf_fcnt32 : (dataFrameOf dir fcnthi b).fcnt32 =
    BitVec.ofNat 32 (fcnthi.toNat * 65536 + intLe (slice b 6 2)) :=
  fcnt32Of_ofNat fcnthi (wireField_two_lt b 6)

/-- R of R63 is 0 exactly when FHDR and the MIC fill the frame. -/
theorem dataFrame_rest_eq_zero (hl : 12 + foptslen b ≤ b.length) :
    b.length - 12 - foptslen b = 0 ↔ b.length = 12 + foptslen b := by omega

theorem dataFrameOf_fport (hl : 12 + foptslen b ≤ b.length) : (dataFrameOf dir fcnthi b).fport =
    if b.length = 12 + foptslen b then none else some (byteAt b (8 + foptslen b)) :=
  if_congr (dataFrame_rest_eq_zero hl) rfl rfl

theorem dataFrameOf_frmOff (hl : 12 + foptslen b ≤ b.length) : (dataFrameOf dir fcnthi b).frmOff =
    if b.length = 12 + foptslen b then 8 + foptslen b else 9 + foptslen b :=
  if_congr (dataFrame_rest_eq_zero hl) rfl rfl

/-- One subtraction serves both cases: without FPort it stops at 0. -/
theorem dataFrameOf_frmLen : (dataFrameOf dir fcnthi b).frmLen = b.length - 13 - foptslen b := by
  change (if b.length - 12 - foptslen b = 0 then 0 else b.length - 12 - foptslen b - 1) = _
  split <;> omega

theorem ofFrame_data (hl : 12 + foptslen b ≤ b.length) :
    Fields.ofFrame (headerOf b) (.data (dataFrameOf (direction b) fcnthi b)) =
      dataFields fcnthi b := by
  rw [Fields.ofFrame, dataFields, dataFrameOf_fcnt32, dataFrameOf_fport _ _ hl,
    dataFrameOf_frmOff _ _ hl, dataFrameOf_frmLen, ← fctrlFpending_eq]
  rfl

end

/-- Settles O15: the body's registers are those the statement writes out, and it has no output. -/
theorem parseSplitsDataFrames : Obligations.ParseSplitsDataFrames := by
  intro s hu hd hl
  rw [exec_parse_of_parseFrame hu fun _ _ => parseFrame_dataFrame hd hl, ofFrame_data _ hl]
  rfl

/-! ## O14: Join-Accepts -/

theorem blockOf_take (b : List Byte) : blockOf (b.take 16) = blockOf b := by
  simp [blockOf, quadAt, byteAt]

/-- The plaintext of the parser, block by block (R128). -/
theorem jaPlain_eq_plaintext (k : Block) {b : List Byte} (h : b.length = 17 ∨ b.length = 33) :
    jaPlain k (slice b 1 (b.length - 1)) = plaintext k b := by
  obtain h | h := h
  · simp [h, plaintext, jaPlain, ecbEnc, ecbBlocks, slice_length]
  · have hfst : blockOf (slice b 1 32) = blockOf (slice b 1 16) := by
      rw [← blockOf_take, slice, slice, List.take_take]
      rfl
    have hsnd : (slice b 1 32).drop 16 = slice b 17 16 := by
      simp [slice, List.drop_take]
    simp [h, plaintext, jaPlain, ecbEnc, ecbBlocks, slice_length, hfst, hsnd]

theorem plaintext_length (k : Block) (b : List Byte) :
    (plaintext k b).length = 32 ↔ b.length = 33 := by
  unfold plaintext
  split <;> simp_all

theorem slice_one_eq_drop (b : List Byte) : slice b 1 (b.length - 1) = b.drop 1 := by
  rw [slice, ← List.length_drop, List.take_length]

/-- DLSettings as the version in `VER` splits it (R62). -/
theorem dlSettings_of_ver {s : State} {ver : Version} (h : verOperand s = .ok ver) (x : Byte) :
    dlOptneg ver x = (if s.ver = some 2 then some (x.extractLsb' 7 1) else none) ∧
      dlRx1droffset ver x =
        if s.ver = some 2 then (x.extractLsb' 4 3).setWidth 4 else x.extractLsb' 4 4 := by
  have h11 := verOperand_is11 h
  cases ver <;> simp_all [dlOptneg, dlRx1droffset]

theorem ofFrame_joinAccept {s : State} {ver : Version} (hv : verOperand s = .ok ver)
    (b p : List Byte) (hp : p.length = 32 ↔ b.length = 33) :
    Fields.ofFrame (headerOf b) (.joinAccept (joinAcceptOf ver p)) = acceptFields s.ver b p := by
  obtain ⟨hneg, hoff⟩ := dlSettings_of_ver hv (byteAt p 10)
  have hcf : (joinAcceptOf ver p).cflist =
      if b.length = 33 then some (blockOf (slice p 12 16)) else none := if_congr hp rfl rfl
  rw [Fields.ofFrame, acceptFields, ← hneg, ← hoff, hcf]
  rfl

/-- Settles O14: the body is the one of the version's root key, recovered or passed through. -/
theorem parseRecoversJoinAccepts : Obligations.ParseRecoversJoinAccepts := by
  intro s hu hl hm
  obtain ⟨ver, hv⟩ := verOperand_of_usable hu
  have hparse : parseInput ver s = .frame (headerOf (frame s))
      (joinAcceptBody ver (s.keys.get (rootOf s.ver)) (frame s)) := by
    rw [← rootSlot_eq_rootOf hv]
    exact parseFrame_joinAccept hm hl
  constructor
  · intro k hk
    rw [hk, joinAcceptBody, jaPlain_eq_plaintext k hl] at hparse
    rw [exec_parse_of_frame hv hparse, ofFrame_joinAccept hv _ _ (plaintext_length k _)]
    rfl
  · intro hk
    rw [hk, joinAcceptBody, slice_one_eq_drop] at hparse
    exact exec_parse_of_frame hv hparse

end Sys2Proof.Machine
end

/-! # The family `44_kdf.md`: KDF and DERIVE

Both commands take the version and its root keys and deliver session keys, so the lemmas on the version's
root keys and on the next state of a derivation serve both. -/

section
namespace Sys2Proof.Machine

open Sys2Proof.Stated

/-! ## The root keys of the version in `VER` -/

section
variable {s : State} {ver : Version}

theorem usable_of_is10 (h : is10 s.ver) : usable s.ver := h.imp_right .inl

theorem ver_ne_two_of_is10 (h : is10 s.ver) : s.ver ≠ some 2 := by
  obtain h | h := h <;> rw [h] <;> decide

theorem rootKeys_of_missing (hv : verOperand s = .ok ver)
    (h : s.keys.appkey = none ∨ (s.ver = some 2 ∧ s.keys.nwkkey = none)) :
    rootKeys ver s.keys = .error .keyUnavailable := by
  obtain ha | ⟨h2, hn⟩ := h
  · cases ver <;> rw [rootKeys, keyOperand_of_none (s := .appkey) ha] <;> rfl
  · rw [(verOperand_is11 hv).mpr h2, rootKeys, keyOperand_of_none (s := .nwkkey) hn]
    obtain ⟨k, -, hk⟩ | ⟨-, hk⟩ := keyOperand_cases s.keys .appkey <;> rw [hk] <;> rfl

theorem rootKeys_version10 {k : Block} (hv : verOperand s = .ok ver) (h2 : s.ver ≠ some 2)
    (hk : s.keys.appkey = some k) : rootKeys ver s.keys = .ok (.v10 k) := by
  cases ver with
  | v10 | v103 =>
    rw [rootKeys, keyOperand_of_some (s := .appkey) hk]
    rfl
  | v11 => exact absurd ((verOperand_is11 hv).mp rfl) h2

theorem rootKeys_version11 {k n : Block} (hv : verOperand s = .ok ver) (h2 : s.ver = some 2)
    (hk : s.keys.appkey = some k) (hn : s.keys.nwkkey = some n) :
    rootKeys ver s.keys = .ok (.v11 n k) := by
  rw [(verOperand_is11 hv).mpr h2, rootKeys, keyOperand_of_some (s := .appkey) hk,
    keyOperand_of_some (s := .nwkkey) hn]
  rfl

/-- The root keys, with the one that recovers the Join-Accept (R125, R154). -/
theorem rootKeys_of_present (hv : verOperand s = .ok ver) (ha : s.keys.appkey ≠ none)
    (hn : s.ver = some 2 → s.keys.nwkkey ≠ none) :
    ∃ root, rootKeys ver s.keys = .ok root ∧ s.keys.get (rootOf s.ver) = some root.joinKey := by
  obtain ⟨k, hk⟩ := Option.ne_none_iff_exists'.mp ha
  by_cases h2 : s.ver = some 2
  · obtain ⟨n, hn⟩ := Option.ne_none_iff_exists'.mp (hn h2)
    exact ⟨_, rootKeys_version11 hv h2 hk hn, by rw [rootOf, if_pos h2]; exact hn⟩
  · exact ⟨_, rootKeys_version10 hv h2 hk, by rw [rootOf, if_neg h2]; exact hk⟩

end

/-! ## The next state of a derivation -/

section
variable {i : Instr} {s : State} {x : Except ErrCode SessionKeys}
  (hi : report i s = .of x .keys .nothing)
include hi

/-- A command that derives keys installs them, and only `ERR` changes besides. -/
theorem exec_derivation_of_ok {k : SessionKeys} (hx : x = .ok k) :
    exec i s = .next (ended { s with keys := s.keys.install k }) := by
  rw [exec_eq, hi, Report.of_ok hx]
  rfl

/-- A command that derives keys leaves every slot alone on an error. -/
theorem exec_derivation_of_error {e : ErrCode} (hx : x = .error e) :
    exec i s = .next (failed s e.code) := by
  rw [exec_eq, hi, Report.of_error hx]
  rfl

end

/-! ## O17: KDF -/

theorem nonceOperand_of_none {s : State}
    (h : s.nAppnonce = none ∨ s.nId = none ∨ s.nDevnonce = none) :
    nonceOperand s = .error .illegalOperand := by
  unfold nonceOperand
  obtain ⟨a, ha, ha'⟩ | ⟨-, ha'⟩ := operand_cases s.nAppnonce
  · obtain ⟨i, hi, hi'⟩ | ⟨-, hi'⟩ := operand_cases s.nId
    · have hd : s.nDevnonce = none := by simpa [ha, hi] using h
      rw [ha', hi', hd]
      rfl
    · rw [ha', hi']
      rfl
  · rw [ha']
    rfl

theorem nonceOperand_of_some {s : State} {a : BitVec 24} {i : BitVec 64} {d : BitVec 16}
    (ha : s.nAppnonce = some a) (hi : s.nId = some i) (hd : s.nDevnonce = some d) :
    nonceOperand s = .ok ⟨a, i, d⟩ := by
  rw [nonceOperand, ha, hi, hd]
  rfl

/-- The register checks of KDF come before the keys (R153). -/
theorem kdfResult_of_no_operands {s : State}
    (h : ¬ usable s.ver ∨ s.nAppnonce = none ∨ s.nId = none ∨ s.nDevnonce = none) :
    kdfResult s = .error .illegalOperand := by
  by_cases hu : usable s.ver
  · obtain ⟨ver, hv⟩ := verOperand_of_usable hu
    rw [kdfResult, hv, nonceOperand_of_none (h.resolve_left (not_not_intro hu))]
    rfl
  · rw [kdfResult, verOperand_of_not_usable hu]
    rfl

/-- Past the register checks the root keys decide how KDF ends (R153). -/
theorem kdfResult_eq_map_rootKeys {s : State} {ver : Version} {n : Nonces}
    (hv : verOperand s = .ok ver) (hn : nonceOperand s = .ok n) :
    kdfResult s = (rootKeys ver s.keys).map fun root =>
      sessionKeys root n.appnonce (n.id.setWidth 24) n.id n.devnonce := by
  rw [kdfResult, hv, hn]
  change (rootKeys ver s.keys >>= _) = _
  cases rootKeys ver s.keys <;> rfl

/-- Settles O17: the operand registers before the root keys, and the slots of each version. -/
theorem kdfDerivesSessionKeys : Obligations.KdfDerivesSessionKeys := by
  refine ⟨rfl, fun s => ⟨fun h => exec_derivation_of_error rfl (kdfResult_of_no_operands h),
    fun a i d ha hi hd => ?_⟩⟩
  have hn := nonceOperand_of_some ha hi hd
  refine ⟨fun hu hmiss => ?missing, fun k h10 hk => ?version10, fun k n h2 hk hnwk => ?version11⟩
  case missing =>
    obtain ⟨ver, hv⟩ := verOperand_of_usable hu
    have hresult := kdfResult_eq_map_rootKeys hv hn
    rw [rootKeys_of_missing hv hmiss] at hresult
    exact exec_derivation_of_error rfl hresult
  case version10 =>
    obtain ⟨ver, hv⟩ := verOperand_of_usable (usable_of_is10 h10)
    have hresult := kdfResult_eq_map_rootKeys hv hn
    rw [rootKeys_version10 hv (ver_ne_two_of_is10 h10) hk] at hresult
    rw [← BitVec.setWidth_eq_extractLsb' (by decide)]
    exact exec_derivation_of_ok rfl hresult
  case version11 =>
    obtain ⟨ver, hv⟩ := verOperand_of_usable (.inr (.inr h2))
    have hresult := kdfResult_eq_map_rootKeys hv hn
    rw [rootKeys_version11 hv h2 hk hnwk] at hresult
    exact exec_derivation_of_ok rfl hresult

/-! ## O18: the checks of DERIVE -/

theorem isJoinPair_iff {jr ja : List Byte} : isJoinPair jr ja = true ↔
    jr.length ≠ 0 ∧ mtype jr = 0 ∧ ja.length ≠ 0 ∧ mtype ja = 1 := by
  simp [isJoinPair, mtype, mhdrOf, and_assoc]

theorem joinPairFits_iff {jr ja : List Byte} : joinPairFits jr ja = true ↔
    jr.length = 23 ∧ (ja.length = 17 ∨ ja.length = 33) := by
  simp [joinPairFits]

theorem deriveResult_of_not_usable {s : State} (hu : ¬ usable s.ver) :
    deriveResult s = .error .illegalOperand := by
  rw [deriveResult, verOperand_of_not_usable hu]
  rfl

theorem deriveResult_of_rootKeys_error {s : State} {ver : Version} {e : ErrCode}
    (hv : verOperand s = .ok ver) (hroot : rootKeys ver s.keys = .error e) :
    deriveResult s = .error e := by
  rw [deriveResult, hv]
  change (rootKeys ver s.keys >>= _) = _
  rw [hroot]
  rfl

/-- With the version and its root keys the two frames decide how DERIVE ends (R154). -/
theorem deriveResult_of_rootKeys {s : State} {ver : Version} {root : RootKeys}
    (hv : verOperand s = .ok ver) (hroot : rootKeys ver s.keys = .ok root) : deriveResult s =
      if !isJoinPair s.abuf.bytes s.ibuf.bytes then .error .invalidJoinPair
      else if !joinPairFits s.abuf.bytes s.ibuf.bytes then .error .malformedFrame
      else .ok (pairKeys root s.abuf.bytes s.ibuf.bytes) := by
  rw [deriveResult, hv]
  change (rootKeys ver s.keys >>= _) = _
  rw [hroot]
  rfl

section
variable {s : State} {ver : Version} {root : RootKeys} (hv : verOperand s = .ok ver)
  (hroot : rootKeys ver s.keys = .ok root)
include hv hroot

theorem deriveResult_not_pair (hp : ¬ isJoinPair s.abuf.bytes s.ibuf.bytes = true) :
    deriveResult s = .error .invalidJoinPair := by
  rw [deriveResult_of_rootKeys hv hroot, if_pos (by simpa using hp)]

theorem deriveResult_not_fits (hp : isJoinPair s.abuf.bytes s.ibuf.bytes = true)
    (hf : ¬ joinPairFits s.abuf.bytes s.ibuf.bytes = true) :
    deriveResult s = .error .malformedFrame := by
  rw [deriveResult_of_rootKeys hv hroot, if_neg (by simpa using hp), if_pos (by simpa using hf)]

theorem deriveResult_fits (hp : isJoinPair s.abuf.bytes s.ibuf.bytes = true)
    (hf : joinPairFits s.abuf.bytes s.ibuf.bytes = true) :
    deriveResult s = .ok (pairKeys root s.abuf.bytes s.ibuf.bytes) := by
  rw [deriveResult_of_rootKeys hv hroot, if_neg (by simpa using hp), if_neg (by simpa using hf)]

end

/-- Settles O18: the version, the root keys, the MTypes and the lengths, in this order. -/
theorem deriveChecksInOrder : Obligations.DeriveChecksInOrder := by
  refine fun s => ⟨fun hu => exec_derivation_of_error rfl (deriveResult_of_not_usable hu),
    fun hu hmiss => ?missing, fun hu ha hnwk => ?present⟩
  case missing =>
    obtain ⟨ver, hv⟩ := verOperand_of_usable hu
    exact exec_derivation_of_error rfl
      (deriveResult_of_rootKeys_error hv (rootKeys_of_missing hv hmiss))
  case present =>
    obtain ⟨ver, hv⟩ := verOperand_of_usable hu
    obtain ⟨root, hroot, -⟩ := rootKeys_of_present hv ha hnwk
    refine ⟨fun hbad => ?_, fun hjr hjr0 hja hja1 hbad => ?_⟩
    · have hp : ¬ isJoinPair s.abuf.bytes s.ibuf.bytes = true := by
        rw [isJoinPair_iff]
        tauto
      exact exec_derivation_of_error rfl (deriveResult_not_pair hv hroot hp)
    · have hp := isJoinPair_iff.mpr ⟨hjr, hjr0, hja, hja1⟩
      have hf : ¬ joinPairFits s.abuf.bytes s.ibuf.bytes = true := by
        rw [joinPairFits_iff]
        tauto
      exact exec_derivation_of_error rfl (deriveResult_not_fits hv hroot hp hf)

/-! ## O19: DERIVE is PARSE and then KDF -/

/-- With JoinEUI in `N_ID` in version 1.1 and NetID before, the identifier is the version's own (R153). -/
theorem sessionKeys_identifier {root : RootKeys} {ver : Option (BitVec 2)}
    (h : root.is11 = true ↔ ver = some 2) (a n : BitVec 24) (e : BitVec 64) (d : BitVec 16) :
    sessionKeys root a ((if ver = some 2 then e else n.setWidth 64).setWidth 24)
        (if ver = some 2 then e else n.setWidth 64) d = sessionKeys root a n e d := by
  cases root with
  | v10 k =>
    rw [if_neg (mt h.mpr Bool.false_ne_true)]
    exact congrArg (kdf10 k a · d) (BitVec.setWidth_setWidth_of_le n (by decide))
  | v11 nwk k => rw [if_pos (h.mp rfl)]; rfl

/-- KDF makes the keys of the four join fields, whichever identifier the version takes (R153). -/
theorem kdfResult_of_joinFields {s : State} {ver : Version} {root : RootKeys} {a n : BitVec 24}
    {e : BitVec 64} {d : BitVec 16} (hv : verOperand s = .ok ver)
    (hroot : rootKeys ver s.keys = .ok root) (ha : s.nAppnonce = some a)
    (hi : s.nId = some (if s.ver = some 2 then e else n.setWidth 64)) (hd : s.nDevnonce = some d) :
    kdfResult s = .ok (sessionKeys root a n e d) := by
  rw [kdfResult_eq_map_rootKeys hv (nonceOperand_of_some ha hi hd), hroot,
    ← sessionKeys_identifier ((rootKeys_is11 hroot).trans (verOperand_is11 hv))]
  rfl

/-- The keys of a join pair are those of the fields of its frames, the Join-Accept recovered. -/
theorem pairKeys_eq_sessionKeys (root : RootKeys) (jr : List Byte) {ja : List Byte}
    (h : ja.length = 17 ∨ ja.length = 33) : pairKeys root jr ja =
      sessionKeys root (field 24 (plaintext root.joinKey ja) 0 3)
        (field 24 (plaintext root.joinKey ja) 3 3) (field 64 jr 1 8) (field 16 jr 17 2) := by
  rw [pairKeys, jaPlain_eq_plaintext _ h]
  rfl

/-- Settles O19: PARSE names the fields by O13 and O14, and KDF and DERIVE make the same keys of them. -/
theorem deriveIsParseThenKdf : Obligations.DeriveIsParseThenKdf := by
  intro s hu ha hnwk hjr hjr0 hja hja1
  obtain ⟨ver, hv⟩ := verOperand_of_usable hu
  obtain ⟨root, hroot, hkey⟩ := rootKeys_of_present hv ha hnwk
  have hparseAccept := (parseRecoversJoinAccepts s hu hja hja1).1 _ hkey
  have hparseRequest := parseSplitsJoinRequests { s with ibuf := s.abuf } hu hjr hjr0
  have hderive := deriveResult_fits hv hroot
    (isJoinPair_iff.mpr ⟨by omega, hjr0, by omega, hja1⟩) (joinPairFits_iff.mpr ⟨hjr, hja⟩)
  rw [pairKeys_eq_sessionKeys root _ hja] at hderive
  refine ⟨_, _, _, _, _, _, _, hparseAccept, hparseRequest, rfl, rfl, rfl, rfl,
    exec_derivation_of_ok rfl ?kdf, rfl, exec_derivation_of_ok rfl hderive⟩
  case kdf =>
    refine kdfResult_of_joinFields (ver := ver) ?_ ?_ rfl rfl rfl
    · exact hv
    · exact hroot

end Sys2Proof.Machine
end

/-! # The family `45_payload_cipher.md`: the payload cipher, KSTREAM and CRYPT

The cipher exclusive-ors a fixed byte onto each byte of the string, so it is a `List.mapIdx`: its length,
its bytes and its being undone by itself are then facts about `List.mapIdx`. -/

section
namespace Sys2Proof.Machine

open Sys2Proof.Stated

/-! ## O60: the cipher, byte by byte -/

/-- The keystream byte for byte j of a string whose first block has index i (R166, R167). -/
def keystreamByte (key : Block) (c : Context) (i j : Nat) : Byte :=
  byteAt (blockBytes (keystream key c (BitVec.ofNat 8 (j / 16 + i)))) (j % 16)

theorem xorBytes_eq_mapIdx {a b : List Byte} (h : a.length ≤ b.length) :
    xorBytes a b = a.mapIdx fun j x => x ^^^ byteAt b j := by
  refine List.ext_getElem (by simpa using h) fun j hj hj' => ?_
  have hb : j < b.length := by
    rw [xorBytes_length] at hj
    omega
  simp [xorBytes, byteAt, hb]

/-- In the first block of a string the keystream is that block's. -/
theorem keystreamByte_of_lt (key : Block) (c : Context) (i : Nat) {j : Nat} (hj : j < 16) :
    keystreamByte key c i j = byteAt (blockBytes (keystream key c (BitVec.ofNat 8 i))) j := by
  rw [keystreamByte, Nat.div_eq_of_lt hj, Nat.mod_eq_of_lt hj, Nat.zero_add]

/-- Past its first block a string goes on with the next index. -/
theorem keystreamByte_add_block (key : Block) (c : Context) (i j : Nat) :
    keystreamByte key c i (j + 16) = keystreamByte key c (i + 1) j := by
  rw [keystreamByte, keystreamByte, Nat.add_mod_right, Nat.add_div_right j (by decide),
    Nat.succ_add_eq_add_succ]

/-- The loop of R167 over enough blocks for the string. -/
theorem cryptBlocks_eq_mapIdx (key : Block) (c : Context) {k : Nat} (i : Nat) {d : List Byte}
    (h : d.length ≤ 16 * k) :
    cryptBlocks key c k i d = d.mapIdx fun j x => x ^^^ keystreamByte key c i j := by
  induction k generalizing i d with
  | zero =>
    rw [List.eq_nil_of_length_eq_zero (Nat.le_zero.mp h)]
    rfl
  | succ k ih =>
    have hfirst : xorBytes (d.take 16) (blockBytes (keystream key c (BitVec.ofNat 8 i))) =
        (d.take 16).mapIdx fun j x => x ^^^ keystreamByte key c i j := by
      rw [xorBytes_eq_mapIdx (List.length_take_le 16 d), List.mapIdx_eq_mapIdx_iff]
      intro j hj
      rw [keystreamByte_of_lt key c i (hj.trans_le (List.length_take_le 16 d))]
    have hrest : cryptBlocks key c k (i + 1) (d.drop 16) =
        (d.drop 16).mapIdx fun j x => x ^^^ keystreamByte key c i (j + (d.take 16).length) := by
      rw [ih (i + 1) (by rw [List.length_drop]; omega), List.mapIdx_eq_mapIdx_iff]
      intro j hj
      have hfull : (d.take 16).length = 16 := by
        rw [List.length_drop] at hj
        rw [List.length_take]
        omega
      rw [hfull, keystreamByte_add_block]
    rw [cryptBlocks, hfirst, hrest, ← List.mapIdx_append, List.take_append_drop]

/-- R167: byte j of the output is byte j of the string XOR its keystream byte. -/
theorem crypt_eq_mapIdx (d : List Byte) (key : Block) (c : Context) :
    crypt d key c = d.mapIdx fun j x => x ^^^ keystreamByte key c 1 j :=
  cryptBlocks_eq_mapIdx key c 1 (by unfold blockCount; omega)

@[simp] theorem crypt_length (d : List Byte) (key : Block) (c : Context) :
    (crypt d key c).length = d.length := by
  rw [crypt_eq_mapIdx, List.length_mapIdx]

/-- Settles O60: exclusive-or with the same keystream byte twice gives each byte back. -/
theorem payloadCipherIsAnInvolution : Obligations.PayloadCipherIsAnInvolution := by
  intro d key c
  rw [crypt_eq_mapIdx, crypt_eq_mapIdx, List.mapIdx_mapIdx]
  refine List.ext_getElem (List.length_mapIdx ..) fun j hj hj' => ?_
  rw [List.getElem_mapIdx, Function.comp_apply, BitVec.xor_assoc, BitVec.xor_self, BitVec.xor_zero]

/-! ## The operands of both commands -/

theorem contextOperand_of_some {s : State} {d : BitVec 1} {a f : BitVec 32} (hd : s.cDir = some d)
    (ha : s.cDevaddr = some a) (hf : s.cFcnt32 = some f) : contextOperand s = .ok ⟨d, a, f⟩ := by
  rw [contextOperand, hd, ha, hf]
  rfl

/-- The context answers its three registers when all are valid, and ILLEGAL_OPERAND when not. -/
theorem contextOperand_cases (s : State) :
    (∃ c, s.cDir = some c.dir ∧ s.cDevaddr = some c.devaddr ∧ s.cFcnt32 = some c.fcnt32 ∧
        contextOperand s = .ok c) ∨
      ((s.cDir = none ∨ s.cDevaddr = none ∨ s.cFcnt32 = none) ∧
        contextOperand s = .error .illegalOperand) := by
  obtain ⟨d, hd, hd'⟩ | ⟨hd, hd'⟩ := operand_cases s.cDir
  · obtain ⟨a, ha, ha'⟩ | ⟨ha, ha'⟩ := operand_cases s.cDevaddr
    · obtain ⟨f, hf, hf'⟩ | ⟨hf, hf'⟩ := operand_cases s.cFcnt32
      · exact .inl ⟨⟨d, a, f⟩, hd, ha, hf, contextOperand_of_some hd ha hf⟩
      · exact .inr ⟨.inr (.inr hf), by rw [contextOperand, hd', ha', hf']; rfl⟩
    · exact .inr ⟨.inr (.inl ha), by rw [contextOperand, hd', ha']; rfl⟩
  · exact .inr ⟨.inl hd, by rw [contextOperand, hd']; rfl⟩

/-! ## O20: KSTREAM -/

section
variable {ks : Slot} {s : State}

theorem kstreamResult_of_no_operands
    (h : s.cDir = none ∨ s.cDevaddr = none ∨ s.cFcnt32 = none ∨ s.cBlkidx = none) :
    kstreamResult ks s = .error .illegalOperand := by
  obtain ⟨c, hd, ha, hf, hc⟩ | ⟨-, hc⟩ := contextOperand_cases s
  · have hi : s.cBlkidx = none := by simpa [hd, ha, hf] using h
    rw [kstreamResult, hc, hi]
    rfl
  · rw [kstreamResult, hc]
    rfl

theorem kstreamResult_key_none {c : Context} {i : Byte} (hc : contextOperand s = .ok c)
    (hi : s.cBlkidx = some i) (hk : s.keys.get ks = none) :
    kstreamResult ks s = .error .keyUnavailable := by
  rw [kstreamResult, hc, hi, keyOperand_of_none hk]
  rfl

theorem kstreamResult_some {c : Context} {i : Byte} {k : Block} (hc : contextOperand s = .ok c)
    (hi : s.cBlkidx = some i) (hk : s.keys.get ks = some k) :
    kstreamResult ks s = .ok (keystream k c i) := by
  rw [kstreamResult, hc, hi, keyOperand_of_some hk]
  rfl

/-- The next state of KSTREAM when it delivers a block. -/
theorem exec_kstream_of_ok {b : Block} (h : kstreamResult ks s = .ok b) :
    exec (.kstream ks) s = .next (ended { s with oblk := some b }) := by
  rw [exec_eq, report, Report.of_ok h]
  rfl

/-- The next state of KSTREAM when it ends with an error. -/
theorem exec_kstream_of_error {e : ErrCode} (h : kstreamResult ks s = .error e) :
    exec (.kstream ks) s = .next (failed { s with oblk := none } e.code) := by
  rw [exec_eq, report, Report.of_error h]
  rfl

end

theorem encode_kstream_toNat (ks : Slot) :
    (encode (.kstream ks)).toNat = 0x50 + 256 * ks.bits.toNat := by
  cases ks <;> rfl

/-- Settles O20: the four registers before the key, and the block of any index. -/
theorem kstreamMakesOneBlock : Obligations.KstreamMakesOneBlock := by
  refine fun ks s => ⟨encode_kstream_toNat ks,
    fun h => exec_kstream_of_error (kstreamResult_of_no_operands h), fun d a f i hd ha hf hi => ?_⟩
  have hc := contextOperand_of_some hd ha hf
  exact ⟨fun hk => exec_kstream_of_error (kstreamResult_key_none hc hi hk),
    fun k hk => exec_kstream_of_ok (kstreamResult_some hc hi hk)⟩

/-! ## O21: CRYPT -/

section
variable {ks : Slot} {s : State}

theorem cryptResult_of_no_operands (h : s.cDir = none ∨ s.cDevaddr = none ∨ s.cFcnt32 = none) :
    cryptResult ks s = .error .illegalOperand := by
  obtain ⟨c, hd, ha, hf, -⟩ | ⟨-, hc⟩ := contextOperand_cases s
  · simp [hd, ha, hf] at h
  · rw [cryptResult, hc]
    rfl

theorem cryptResult_key_none {c : Context} (hc : contextOperand s = .ok c)
    (hk : s.keys.get ks = none) : cryptResult ks s = .error .keyUnavailable := by
  rw [cryptResult, hc, keyOperand_of_none hk]
  rfl

theorem cryptResult_some {c : Context} {k : Block} (hc : contextOperand s = .ok c)
    (hk : s.keys.get ks = some k) : cryptResult ks s = .ok (crypt s.ibuf.bytes k c) := by
  rw [cryptResult, hc, keyOperand_of_some hk]
  rfl

/-- The next state of CRYPT when it delivers a string. -/
theorem exec_crypt_of_ok {b : List Byte} (h : cryptResult ks s = .ok b) :
    exec (.crypt ks) s = .next (ended { s with obuf := Memory.ofBytes b }) := by
  rw [exec_eq, report, Report.of_ok h]
  rfl

/-- The next state of CRYPT when it ends with an error. -/
theorem exec_crypt_of_error {e : ErrCode} (h : cryptResult ks s = .error e) :
    exec (.crypt ks) s = .next (failed { s with obuf := [] } e.code) := by
  rw [exec_eq, report, Report.of_error h]
  rfl

end

theorem encode_crypt_toNat (ks : Slot) :
    (encode (.crypt ks)).toNat = 0x51 + 256 * ks.bits.toNat := by
  cases ks <;> rfl

/-- Settles O21: the three registers before the key, and the cipher byte by byte. -/
theorem cryptXorsIbuf : Obligations.CryptXorsIbuf := by
  refine fun ks s => ⟨encode_crypt_toNat ks,
    fun h => exec_crypt_of_error (cryptResult_of_no_operands h), fun d a f hd ha hf => ?_⟩
  have hc := contextOperand_of_some hd ha hf
  refine ⟨fun hk => exec_crypt_of_error (cryptResult_key_none hc hk), fun k hk =>
    ⟨_, exec_crypt_of_ok (cryptResult_some hc hk), rfl, ?size, fun j => ?byte⟩⟩
  case size =>
    change (Memory.ofBytes _).size = s.ibuf.length
    rw [Memory.size_ofBytes, crypt_length, Memory.bytes_length]
  case byte =>
    change (Memory.ofBytes _).read j = _
    rw [Memory.read_ofBytes, crypt_eq_mapIdx, List.getElem?_mapIdx]
    rfl

/-! ## O47: CRYPT undoes CRYPT -/

/-- A CRYPT that ends with `ERR` 0 found its context and its key. -/
theorem exec_crypt_err_zero {ks : Slot} {s t : State} (h : exec (.crypt ks) s = .next t)
    (h0 : t.err = 0) : ∃ c k, contextOperand s = .ok c ∧ s.keys.get ks = some k ∧
      t = ended { s with obuf := Memory.ofBytes (crypt s.ibuf.bytes k c) } := by
  have of_error : ∀ e, cryptResult ks s = .error e → False := by
    intro e he
    rw [exec_crypt_of_error he] at h
    cases h
    cases e <;> cases h0
  obtain ⟨c, -, -, -, hc⟩ | ⟨hnone, -⟩ := contextOperand_cases s
  · cases hk : s.keys.get ks with
    | none => exact (of_error _ (cryptResult_key_none hc hk)).elim
    | some k =>
      rw [exec_crypt_of_ok (cryptResult_some hc hk)] at h
      cases h
      exact ⟨c, k, hc, rfl, rfl⟩
  · exact (of_error _ (cryptResult_of_no_operands hnone)).elim

theorem run_two_of_steps {s t u : State} (hst : step s = .next t) (htu : step t = .next u) :
    Sys2Proof.core.run 2 s = .next u :=
  (run_succ_of_step Sys2Proof.core hst 1).trans (run_succ_of_step Sys2Proof.core htu 0)

/-- Two steps load `IBUF` and issue a command. -/
theorem run_load_issue (s : State) {b : List Byte} (hb : b.length ≤ Config.nbuf) (i : Instr)
    {u : State} (h : exec i { s with ibuf := Memory.ofBytes b, inbox := [] } = .next u) :
    Sys2Proof.core.run 2 { s with inbox := [.load .ibuf b, .issue (encode i)] } = .next u := by
  have hload : step { s with inbox := [.load .ibuf b, .issue (encode i)] } =
      .next { s with ibuf := Memory.ofBytes b, inbox := [.issue (encode i)] } :=
    if_neg (Nat.not_lt.mpr hb)
  have hissue : step { s with ibuf := Memory.ofBytes b, inbox := [.issue (encode i)] } =
      .next u := by
    rw [step_of_inbox rfl, performAction, issueWord, decode_encode]
    exact h
  exact run_two_of_steps hload hissue

/-- Loading a string and issuing CRYPT leaves the string encrypted in `OBUF`. -/
theorem run_load_crypt {s : State} {ks : Slot} {c : Context} {k : Block}
    (hc : contextOperand s = .ok c) (hk : s.keys.get ks = some k) {b : List Byte}
    (hb : b.length ≤ Config.nbuf) :
    ∃ u : State, Sys2Proof.core.run 2
        { s with inbox := [.load .ibuf b, .issue (encode (.crypt ks))] } = .next u ∧
      u.err = 0 ∧ u.obuf = Memory.ofBytes (crypt b k c) := by
  have hresult : cryptResult ks { s with ibuf := Memory.ofBytes b, inbox := [] } =
      .ok (crypt (Memory.ofBytes b).bytes k c) := cryptResult_some hc hk
  rw [Memory.bytes_ofBytes] at hresult
  exact ⟨_, run_load_issue s hb _ (exec_crypt_of_ok hresult), rfl, rfl⟩

/-- Settles O47: the second CRYPT has the context and the key of the first, and O60 applies. -/
theorem cryptIsUndoneByCrypt : Obligations.CryptIsUndoneByCrypt := by
  intro ks s t hwf h h0
  obtain ⟨c, k, hc, hk, ht⟩ := exec_crypt_err_zero h h0
  have hobuf : t.obuf.bytes = crypt s.ibuf.bytes k c := by
    rw [ht]
    exact Memory.bytes_ofBytes _
  have hfits : t.obuf.bytes.length ≤ Config.nbuf := by
    rw [hobuf, crypt_length, Memory.bytes_length]
    exact Memory.wf_length hwf
  have hct : contextOperand t = .ok c := by rw [ht]; exact hc
  have hkt : t.keys.get ks = some k := by rw [ht]; exact hk
  obtain ⟨u, hrun, herr, hu⟩ := run_load_crypt hct hkt hfits
  rw [hobuf, payloadCipherIsAnInvolution, ← Memory.eq_ofBytes hwf] at hu
  exact ⟨u, hrun, herr, hu⟩

end Sys2Proof.Machine
end

/-! # The family `46_mic.md`: CMIC and VMIC

Both commands deliver from one computation, `micResult`. The first lemmas give both next states from
each way that computation ends; the statements then ask only what it computes, frame by frame. -/

section
namespace Sys2Proof.Machine

open Sys2Proof.Stated

/-! ## MICs as numbers -/

theorem quadNumber_toNat (q : Quad) : (quadNumber q).toNat = intLe (quadBytes q) := by
  have hlt : intLe (quadBytes q) < 256 ^ 4 := intLe_lt (quadBytes q)
  rw [quadNumber, BitVec.toNat_ofNat]
  exact Nat.mod_eq_of_lt hlt

/-- A byte appended to a number is its least significant byte. -/
theorem append_byte_toNat {n : Nat} (x : BitVec n) (b : Byte) :
    (x ++ b).toNat = b.toNat + 256 * x.toNat := by
  rw [BitVec.toNat_append, ← Nat.shiftLeft_add_eq_or_of_lt b.isLt, Nat.shiftLeft_eq]
  omega

theorem quadNumber_eq_micNumber (q : Quad) : quadNumber q = micNumber q := by
  apply BitVec.eq_of_toNat_eq
  rw [quadNumber_toNat, micNumber, append_byte_toNat, append_byte_toNat, append_byte_toNat]
  rfl

/-- Four bytes are read back from their number, so MICs with the same number are the same. -/
theorem quadNumber_injective : Function.Injective quadNumber := by
  have hread : ∀ q, leBytes 4 (quadNumber q).toNat = quadBytes q := fun q => by
    rw [quadNumber_toNat]
    exact leBytes_intLe (quadBytes q)
  intro p q h
  have hbytes : quadBytes p = quadBytes q := by rw [← hread p, ← hread q, h]
  cases p
  cases q
  simpa [quadBytes] using hbytes

@[simp] theorem micVerdict_some (a b : BitVec 32) :
    micVerdict (some a) (some b) = some (if a = b then 1 else 0) := rfl

theorem micRegs_some (p q : Quad) : micRegs (some p) (some q) = micPair p q := by
  simp only [micRegs, micPair, Option.map_some, micVerdict_some, quadNumber_injective.eq_iff,
    ← quadNumber_eq_micNumber]

theorem micRegs_none : micRegs none none = MicRegs.empty := rfl

/-! ## The next states of CMIC and VMIC -/

section
variable {s : State}

theorem exec_mics_of_ok {m : MicRegs} (h : micResult s = .ok m) :
    exec .vmic s = .next (ended { s with mic := m }) ∧
      exec .cmic s = .next (ended { s with mic := { s.mic with derived := m.derived } }) := by
  rw [exec_eq, exec_eq, report, report, Report.of_ok h, Report.of_ok h]
  exact ⟨rfl, rfl⟩

theorem bothMics_of_ok {p q : Quad} (h : micResult s = .ok (micPair p q)) : bothMics s p q :=
  exec_mics_of_ok h

theorem neitherMic_of_error {e : ErrCode} (h : micResult s = .error e) : neitherMic s e.code := by
  rw [neitherMic, exec_eq, exec_eq, report, report, Report.of_error h, Report.of_error h]
  exact ⟨rfl, rfl⟩

/-! ## What both commands compute: the version, the frame, the keys -/

theorem micResult_of_not_usable (hu : ¬ usable s.ver) : micResult s = .error .illegalOperand := by
  rw [micResult, verOperand_of_not_usable hu]
  rfl

theorem micResult_of_malformed (hu : usable s.ver) (h : malformed (frame s)) :
    micResult s = .error .malformedFrame := by
  obtain ⟨ver, hv⟩ := verOperand_of_usable hu
  obtain ⟨m, hm, -⟩ := parseFrame_of_malformed (ver := ver) (fcnthi := s.fcnthi)
    (root := s.keys.get (rootSlot ver)) h
  have hp : parseInput ver s = .malformed m := hm
  rw [micResult, hv]
  dsimp only [bind, Except.bind]
  rw [hp]

/-- Once the frame has parsed, its body and the keys decide the derived MIC, and its bytes the other. -/
theorem micResult_of_frame {ver : Version} {m : Mhdr} {b : Body} (hv : verOperand s = .ok ver)
    (h : parseInput ver s = .frame m b) :
    micResult s =
      (micOfFrame ver s.keys (frame s) b).map (micRegs (micInFrame (frame s) b)) := by
  rw [micResult, hv]
  dsimp only [bind, Except.bind]
  rw [h]
  change (micOfFrame ver s.keys (frame s) b >>= _) = _
  cases micOfFrame ver s.keys (frame s) b <;> rfl

section
variable {ver : Version} {m : Mhdr} {b : Body} (hv : verOperand s = .ok ver)
  (h : parseInput ver s = .frame m b)
include hv h

/-- A frame in which a MIC is seen and for which one is derived. -/
theorem bothMics_of_frame {p q : Quad} (hin : micInFrame (frame s) b = some p)
    (hder : micOfFrame ver s.keys (frame s) b = .ok (some q)) : bothMics s p q := by
  apply bothMics_of_ok
  rw [micResult_of_frame hv h, hin, hder, ← micRegs_some]
  rfl

/-- A frame whose MIC needs a key that is not there. -/
theorem neitherMic_of_frame
    (hder : micOfFrame ver s.keys (frame s) b = .error .keyUnavailable) : neitherMic s 7 := by
  apply neitherMic_of_error (e := .keyUnavailable)
  rw [micResult_of_frame hv h, hder]
  rfl

end
end

/-! ## The derived MIC of each body -/

theorem beforeMic_eq_take (b : List Byte) : beforeMic b = b.take (b.length - 4) := rfl

theorem micData10_beforeMic (key : Block) (c : Context) (b : List Byte) :
    micData10 key c (beforeMic b) =
      (cmac key (blockBytes (b0Block c (b.length - 4)) ++ b.take (b.length - 4))).c0 := by
  rw [micData10, beforeMic_eq_take, List.length_take_of_le (Nat.sub_le _ _), mic]

section
variable {ver : Version} {k : KeyFile} {b : List Byte}

theorem micOfFrame_joinRequest {j : JoinRequest} {key : Block}
    (hk : k.get (rootSlot ver) = some key) :
    micOfFrame ver k b (.joinRequest j) = .ok (some (cmac key (b.take 19)).c0) := by
  rw [micOfFrame, keyOperand_of_some hk]
  rfl

theorem micOfFrame_joinRequest_none {j : JoinRequest} (hk : k.get (rootSlot ver) = none) :
    micOfFrame ver k b (.joinRequest j) = .error .keyUnavailable := by
  rw [micOfFrame, keyOperand_of_none hk]
  rfl

theorem micOfFrame_joinAccept {j : JoinAccept} {key : Block}
    (hk : k.get (rootSlot ver) = some key) :
    micOfFrame ver k b (.joinAccept j) =
      .ok (some (cmac key (byteAt b 0 :: j.plain.take (j.plain.length - 4))).c0) := by
  rw [micOfFrame, keyOperand_of_some hk]
  rfl

theorem micOfFrame_data {d : DataFrame} :
    micOfFrame ver k b (.data d) = (dataMic ver k b d).map some := by
  rw [micOfFrame]
  cases dataMic ver k b d <;> rfl

theorem dataMic_version10 {d : DataFrame} {key : Block} (h10 : ver ≠ .v11)
    (hk : k.nwkskey = some key) :
    dataMic ver k b d =
      .ok (cmac key (blockBytes (b0Block d.context (b.length - 4)) ++ b.take (b.length - 4))).c0 := by
  rw [← micData10_beforeMic]
  cases ver with
  | v10 | v103 =>
    rw [dataMic, keyOperand_of_some (s := .nwkskey) hk]
    rfl
  | v11 => exact absurd rfl h10

theorem dataMic_version10_none {d : DataFrame} (h10 : ver ≠ .v11) (hk : k.nwkskey = none) :
    dataMic ver k b d = .error .keyUnavailable := by
  cases ver with
  | v10 | v103 =>
    rw [dataMic, keyOperand_of_none (s := .nwkskey) hk]
    rfl
  | v11 => exact absurd rfl h10

theorem dataMic_version11 {d : DataFrame} {k1 k2 : Block} (h1 : k.fnwksintkey = some k1)
    (h2 : k.snwksintkey = some k2) : dataMic .v11 k b d =
      .ok (Config.mic11 k1 k2 d.dir d.devaddr d.fcnt32 (b.take (b.length - 4))) := by
  rw [dataMic, keyOperand_of_some (s := .fnwksintkey) h1, keyOperand_of_some (s := .snwksintkey) h2]
  rfl

/-- Either slot's being invalid makes the MIC unavailable, whatever the other holds. -/
theorem dataMic_version11_none {d : DataFrame} (h : k.fnwksintkey = none ∨ k.snwksintkey = none) :
    dataMic .v11 k b d = .error .keyUnavailable := by
  rw [dataMic]
  obtain ⟨k1, h1, hk1⟩ | ⟨-, hk1⟩ := keyOperand_cases k .fnwksintkey
  · have h2 : k.snwksintkey = none := h.resolve_left (Option.ne_none_iff_exists'.mpr ⟨k1, h1⟩)
    rw [hk1, keyOperand_of_none (s := .snwksintkey) h2]
    rfl
  · rw [hk1]
    rfl

end

/-! ## O22: Join-Requests -/

/-- Settles O22: the MIC is under the version's root key, over what precedes the last four bytes. -/
theorem micOfJoinRequests : Obligations.MicOfJoinRequests := by
  intro s hu hl hm
  obtain ⟨ver, hv⟩ := verOperand_of_usable hu
  have hparse : parseInput ver s = .frame (headerOf (frame s))
      (.joinRequest (joinRequestOf (frame s))) := parseFrame_joinRequest hm hl
  have hin : micInFrame (frame s) (.joinRequest (joinRequestOf (frame s))) =
      some (quadAt (frame s) 19) := by rw [micInFrame, hl]
  rw [← rootSlot_eq_rootOf hv]
  exact ⟨fun k hk => bothMics_of_frame hv hparse hin (micOfFrame_joinRequest hk),
    fun hk => neitherMic_of_frame hv hparse (micOfFrame_joinRequest_none hk)⟩

/-! ## O23: Join-Accepts -/

/-- Settles O23: with the root key the MIC is seen and derived in the plaintext; without it the body is
the ciphertext, which has neither. -/
theorem micOfJoinAccepts : Obligations.MicOfJoinAccepts := by
  intro s hu hl hm
  obtain ⟨ver, hv⟩ := verOperand_of_usable hu
  have hparse : parseInput ver s = .frame (headerOf (frame s))
      (joinAcceptBody ver (s.keys.get (rootSlot ver)) (frame s)) := parseFrame_joinAccept hm hl
  rw [← rootSlot_eq_rootOf hv]
  constructor
  · rintro k p hk rfl
    rw [hk, joinAcceptBody, jaPlain_eq_plaintext k hl] at hparse
    exact bothMics_of_frame hv hparse rfl (micOfFrame_joinAccept hk)
  · intro hk
    rw [hk, joinAcceptBody] at hparse
    exact neitherMic_of_frame hv hparse rfl

/-! ## O24, O25: data frames -/

section
variable {s : State} {ver : Version} (hv : verOperand s = .ok ver) (hd : isData (frame s))
  (hl : 12 + foptslen (frame s) ≤ (frame s).length)
include hv hd hl

/-- The derived MIC of a data frame is that of its version; the one in the frame is its end. -/
theorem bothMics_of_dataFrame {q : Quad}
    (h : dataMic ver s.keys (frame s) (dataFrameOf (direction (frame s)) s.fcnthi (frame s)) =
      .ok q) :
    bothMics s (quadAt (frame s) ((frame s).length - 4)) q :=
  bothMics_of_frame hv (parseFrame_dataFrame hd hl) rfl (micOfFrame_data.trans (congrArg _ h))

theorem neitherMic_of_dataFrame
    (h : dataMic ver s.keys (frame s) (dataFrameOf (direction (frame s)) s.fcnthi (frame s)) =
      .error .keyUnavailable) : neitherMic s 7 :=
  neitherMic_of_frame hv (parseFrame_dataFrame hd hl) (micOfFrame_data.trans (congrArg _ h))

end

/-- Settles O24: the parsed frame's context is the one the statement writes out. -/
theorem micOfDataFrames : Obligations.MicOfDataFrames := by
  intro s h10 hd hl
  obtain ⟨ver, hv⟩ := verOperand_of_usable (usable_of_is10 h10)
  have hne : ver ≠ .v11 := fun h => ver_ne_two_of_is10 h10 ((verOperand_is11 hv).mp h)
  exact ⟨fun k hk => bothMics_of_dataFrame hv hd hl (dataMic_version10 hne hk),
    fun hk => neitherMic_of_dataFrame hv hd hl (dataMic_version10_none hne hk)⟩

/-- Settles O25: the open function gets the parsed frame's fields, whatever its value there. -/
theorem micOfDataFramesOfVersion11 : Obligations.MicOfDataFramesOfVersion11 := by
  intro s h2 hd hl
  have hv : verOperand s = .ok .v11 := by
    rw [verOperand, h2]
    rfl
  exact ⟨fun _ _ hf hs => bothMics_of_dataFrame hv hd hl (dataMic_version11 hf hs),
    fun h => neitherMic_of_dataFrame hv hd hl (dataMic_version11_none h)⟩

/-! ## O26: no version, no layout, no structure -/

/-- Settles O26: the first two checks come before the keys, and an OPAQUE body has no MIC. -/
theorem micOfOtherFrames : Obligations.MicOfOtherFrames := by
  refine fun s => ⟨fun hu => neitherMic_of_error (micResult_of_not_usable hu),
    fun hu h => neitherMic_of_error (micResult_of_malformed hu h), fun hu hm hl => ?_⟩
  obtain ⟨ver, hv⟩ := verOperand_of_usable hu
  exact exec_mics_of_ok (micResult_of_frame hv (parseFrame_opaque hl hm))

/-! ## O27: the verdict -/

/-- A frame without error has both MICs or neither. -/
theorem micOfFrame_isSome {ver : Version} {k : KeyFile} {f : List Byte} {b : Body} {d : Option Quad}
    (h : micOfFrame ver k f b = .ok d) : d.isSome = (micInFrame f b).isSome := by
  cases b with
  | joinRequest j | joinAccept j | data d =>
    obtain ⟨_, -, hd⟩ := bind_eq_ok h
    cases hd
    rfl
  | joinAcceptEnc e => cases h
  | unstructured =>
    cases h
    rfl

theorem micResult_isSome {s : State} {m : MicRegs} (h : micResult s = .ok m) :
    m.derived.isSome = m.inframe.isSome := by
  obtain ⟨ver, -, h⟩ := bind_eq_ok h
  split at h
  · cases h
  · obtain ⟨d, hd, h⟩ := bind_eq_ok h
    cases h
    simpa [micRegs] using micOfFrame_isSome hd

/-- The verdict on two MICs that both have a value tells whether they are equal (R23). -/
theorem MicRegs.Coherent.ok_eq_one_iff {m : MicRegs} (h : m.Coherent) {a b : BitVec 32}
    (hi : m.inframe = some a) (hd : m.derived = some b) :
    (m.ok = some 1 ↔ m.inframe = m.derived) ∧ m.ok ≠ none := by
  rw [h, hi, hd, micVerdict_some]
  by_cases hab : a = b <;> simp [hab]

/-- Settles O27: an error clears MIC_INFRAME; else both MICs are there and the verdict is coherent. -/
theorem micMismatchIsNotAnError : Obligations.MicMismatchIsNotAnError := by
  intro s t h hin
  cases hr : micResult s with
  | error e =>
    obtain ⟨hvmic, -⟩ := neitherMic_of_error hr
    obtain rfl := Host.Outcome.next.inj (hvmic.symm.trans h)
    exact absurd rfl hin
  | ok m =>
    obtain ⟨hvmic, -⟩ := exec_mics_of_ok hr
    obtain rfl := Host.Outcome.next.inj (hvmic.symm.trans h)
    obtain ⟨a, ha⟩ := Option.ne_none_iff_exists'.mp hin
    obtain ⟨b, hb⟩ := Option.isSome_iff_exists.mp
      ((micResult_isSome hr).trans (Option.isSome_iff_exists.mpr ⟨a, ha⟩))
    exact ⟨rfl, rfl, (micResult_coherent hr).ok_eq_one_iff ha hb⟩

end Sys2Proof.Machine
end

/-! # The family `47_decode_system.md`: DECODE, NOP, CLR, and commands issued twice

DECODE shares its parse with PARSE and its MICs with VMIC. `exec_decode_of_frame` gives its whole next
state once the frame has parsed; the statements on it then ask what stands in that state, body by body. -/

section
namespace Sys2Proof.Machine

open Sys2Proof.Stated

/-! ## O7, O8: NOP and CLR -/

/-- Settles O7: `succeed` writes `ERR` alone. -/
theorem nopClearsErrOnly : Obligations.NopClearsErrOnly := ⟨rfl, fun _ => rfl⟩

/-- A cleared state shows the reset value of every register (R28). -/
theorem State.clear_register (s : State) (r : RegName) : s.clear.register r = resetValue r := by
  cases r with
  | key slot => cases slot <;> rfl
  | length b => cases b <;> rfl
  | _ => rfl

/-- A cleared state has no byte in any buffer (R28). -/
theorem State.clear_buffer_read (s : State) (b : Buf) (a : Nat) : (s.clear.buffer b).read a = none := by
  cases b <;> rfl

/-- Settles O8, register by register and buffer by buffer. -/
theorem clrRestoresTheResetState : Obligations.ClrRestoresTheResetState :=
  ⟨rfl, fun s => ⟨s.clear, rfl, s.clear_register, s.clear_buffer_read, rfl⟩⟩

/-! ## The next state of DECODE -/

theorem exec_decode_of_frame {s : State} {ver : Version} {m : Mhdr} {b : Body}
    (hv : verOperand s = .ok ver) (h : parseInput ver s = .frame m b) :
    exec .decode s = .next (ended { s with
      f := (decodedOf ver s.keys (frame s) m b).1
      obuf := Memory.ofBytes (decodedOf ver s.keys (frame s) m b).2
      mic := micRegs (micInFrame (frame s) b) (derivedMic ver s.keys (frame s) b) }) := by
  rw [exec_eq, report, decodeReport, hv]
  dsimp only
  rw [h]
  rfl

/-! ## O28: DECODE and PARSE -/

/-- F_KIND 4 is the kind of the data frames (R22). -/
theorem Body.kind_eq_four_iff (b : Body) : b.kind = 4 ↔ ∃ d, b = .data d := by
  cases b <;> simp [Body.kind]

section
variable (ver : Version) (k : KeyFile) (f : List Byte) (m : Mhdr) {b : Body}

/-- Without its payload flag DECODE leaves the registers of PARSE (R200). -/
theorem decodedOf_fields (b : Body) :
    { (decodedOf ver k f m b).1 with payEnc := none } = Fields.ofFrame m b := by
  cases b <;> rfl

theorem decodedOf_of_not_data (h : ¬ ∃ d, b = .data d) :
    decodedOf ver k f m b = (Fields.ofFrame m b, b.output) := by
  cases b with
  | data d => exact absurd ⟨d, rfl⟩ h
  | _ => rfl

theorem decodedOf_kind (b : Body) : (decodedOf ver k f m b).1.kind = some b.kind := by
  cases b <;> rfl

end

/-- Settles O28: the two next states of the same parsed frame, whose body is a data frame or is not. -/
theorem decodeExtendsParse : Obligations.DecodeExtendsParse := by
  intro s hu hm
  obtain ⟨ver, hv⟩ := verOperand_of_usable hu
  obtain ⟨b, hb⟩ := parseFrame_of_not_malformed hm
  refine ⟨_, _, exec_parse_of_frame hv hb, exec_decode_of_frame hv hb, rfl, rfl,
    decodedOf_fields _ _ _ _ b, fun h4 => ?data, fun h4 => ?other⟩
  all_goals
    simp only [ended, decodedOf_kind, ne_eq, Option.some.injEq, Body.kind_eq_four_iff] at h4
  case data =>
    obtain ⟨d, rfl⟩ := h4
    exact Option.some_ne_none _
  case other =>
    simp only [ended, decodedOf_of_not_data _ _ _ _ h4, and_self]

/-! ## O30: DECODE and VMIC -/

/-- The layout of a frame that no check of R122 rejects. -/
theorem layout_cases {b : List Byte} (h : ¬ malformed b) :
    (mtype b = 0 ∧ b.length = 23) ∨ (mtype b = 1 ∧ (b.length = 17 ∨ b.length = 33)) ∨
      (isData b ∧ 12 + foptslen b ≤ b.length) ∨ ((mtype b = 6 ∨ mtype b = 7) ∧ 12 ≤ b.length) := by
  simp only [malformed, not_or, not_and, not_not, Nat.not_lt] at h
  obtain ⟨h12, h23, h33, hdata⟩ := h
  obtain hm | hm | hd | hm := mtype_cases b
  · exact .inl ⟨hm, h23 hm⟩
  · exact .inr (.inl ⟨hm, or_iff_not_imp_left.mpr (h33 hm)⟩)
  · exact .inr (.inr (.inl ⟨hd, hdata hd⟩))
  · exact .inr (.inr (.inr ⟨hm, h12⟩))

theorem mtype_ne_one_of_isData {b : List Byte} (h : isData b) : mtype b ≠ 1 := by
  obtain h | h | h | h := h <;> rw [h] <;> decide

/-- A frame whose MIC needs a key that is not there still shows its last four bytes, but for a
Join-Accept: its MIC is in the region that the same key recovers (R67, R200). -/
theorem micInFrame_of_micOfFrame_error {b : List Byte} {ver : Version} {fcnthi : BitVec 16}
    {k : KeyFile} {m : Mhdr} {body : Body} {e : ErrCode} (hb : ¬ malformed b)
    (hp : parseFrame b ver fcnthi (k.get (rootSlot ver)) = .frame m body)
    (he : micOfFrame ver k b body = .error e) :
    micInFrame b body = if mtype b = 1 then none else some (quadAt b (b.length - 4)) := by
  obtain ⟨hm, hl⟩ | ⟨hm, hl⟩ | ⟨hd, hl⟩ | ⟨hm, hl⟩ := layout_cases hb
  · rw [parseFrame_joinRequest hm hl] at hp
    cases hp
    rw [if_neg (by rw [hm]; decide), micInFrame]
  · rw [parseFrame_joinAccept hm hl] at hp
    cases hp
    cases hk : k.get (rootSlot ver) with
    | some key =>
      rw [hk, joinAcceptBody, micOfFrame_joinAccept hk] at he
      cases he
    | none => rw [if_pos hm, joinAcceptBody, micInFrame]
  · rw [parseFrame_dataFrame hd hl] at hp
    cases hp
    rw [if_neg (mtype_ne_one_of_isData hd), micInFrame]
  · rw [parseFrame_opaque hl hm] at hp
    cases hp
    cases he

theorem derivedMic_of_ok {ver : Version} {k : KeyFile} {f : List Byte} {b : Body} {q : Option Quad}
    (h : micOfFrame ver k f b = .ok q) : derivedMic ver k f b = q := by
  rw [derivedMic, h]

theorem derivedMic_of_error {ver : Version} {k : KeyFile} {f : List Byte} {b : Body} {e : ErrCode}
    (h : micOfFrame ver k f b = .error e) : derivedMic ver k f b = none := by
  rw [derivedMic, h]

/-- Without a derived MIC there is no verdict (R23). -/
theorem micRegs_underived (q : Option Quad) :
    micRegs q none = ⟨q.map quadNumber, none, none⟩ := by
  cases q <;> rfl

/-- The only error of a MIC is a missing key. -/
theorem micOfFrame_error {ver : Version} {k : KeyFile} {f : List Byte} {b : Body} {e : ErrCode}
    (h : micOfFrame ver k f b = .error e) : e = .keyUnavailable :=
  List.mem_singleton.mp (micOfFrame_raises ver k f b (List.mem_singleton_self _) e h)

/-- What O30 says of a DECODE that leaves `t`, where VMIC leaves `u`. -/
def ReportsMicOf (s u t : State) : Prop :=
  (u.err = 0 → t.err = 0 ∧ t.mic = u.mic) ∧
    (u.err = 7 → t.err = 0 ∧ t.mic.derived = none ∧ t.mic.ok = none ∧
      t.mic.inframe = if mtype (frame s) = 1 then none
        else some (micNumber (quadAt (frame s) ((frame s).length - 4)))) ∧
    (u.err = 2 ∨ u.err = 6 → t.err = u.err ∧ t.mic = MicRegs.empty)

section
variable {s u t : State}

theorem ReportsMicOf.of_success (hu : u.err = 0) (ht : t.err = 0) (hm : t.mic = u.mic) :
    ReportsMicOf s u t := by
  simp [ReportsMicOf, hu, ht, hm]

theorem ReportsMicOf.of_missing_key (hu : u.err = 7) (ht : t.err = 0) {q : Option Quad}
    (hm : t.mic = micRegs q none)
    (hq : q = if mtype (frame s) = 1 then none
      else some (quadAt (frame s) ((frame s).length - 4))) :
    ReportsMicOf s u t := by
  rw [micRegs_underived] at hm
  subst hq
  split at hm <;> simp_all [ReportsMicOf, quadNumber_eq_micNumber]

theorem ReportsMicOf.of_error (hu : u.err = 2 ∨ u.err = 6) (ht : t.err = u.err)
    (hm : t.mic = MicRegs.empty) : ReportsMicOf s u t := by
  obtain hu | hu := hu <;> simp [ReportsMicOf, hu, ht, hm]

end

/-- Settles O30: the version and the layout fail both commands; else one computation decides both, and
its only error is a missing key. -/
theorem decodeReportsTheMicOfVmic : Obligations.DecodeReportsTheMicOfVmic := by
  intro s u hvmic
  by_cases hu : usable s.ver
  case neg =>
    obtain ⟨hfail, -⟩ := neitherMic_of_error (micResult_of_not_usable hu)
    obtain rfl := Host.Outcome.next.inj (hfail.symm.trans hvmic)
    exact ⟨_, exec_decode_of_not_usable hu, ReportsMicOf.of_error (.inr rfl) rfl rfl⟩
  by_cases hm : malformed (frame s)
  case pos =>
    obtain ⟨hfail, -⟩ := neitherMic_of_error (micResult_of_malformed hu hm)
    obtain rfl := Host.Outcome.next.inj (hfail.symm.trans hvmic)
    exact ⟨_, exec_decode_of_malformed hu hm, ReportsMicOf.of_error (.inl rfl) rfl rfl⟩
  obtain ⟨ver, hv⟩ := verOperand_of_usable hu
  obtain ⟨b, hb⟩ := parseFrame_of_not_malformed hm
  refine ⟨_, exec_decode_of_frame hv hb, ?_⟩
  have hresult := micResult_of_frame hv hb
  cases hmic : micOfFrame ver s.keys (frame s) b with
  | ok q =>
    rw [hmic] at hresult
    obtain ⟨hok, -⟩ := exec_mics_of_ok hresult
    obtain rfl := Host.Outcome.next.inj (hok.symm.trans hvmic)
    rw [derivedMic_of_ok hmic]
    exact ReportsMicOf.of_success rfl rfl rfl
  | error e =>
    obtain rfl := micOfFrame_error hmic
    obtain ⟨hfail, -⟩ := neitherMic_of_frame hv hb hmic
    obtain rfl := Host.Outcome.next.inj (hfail.symm.trans hvmic)
    rw [derivedMic_of_error hmic]
    exact ReportsMicOf.of_missing_key rfl rfl rfl (micInFrame_of_micOfFrame_error hm hb hmic)

/-! ## O31: the payload -/

section
variable {ver : Version} {k : KeyFile} {f : List Byte} {d : DataFrame}

/-- An empty payload selects no key, with or without FPort (R200). -/
theorem payloadOf_empty (h : d.frmLen = 0) : payloadOf ver k f d = ([], 0) := by
  unfold payloadOf
  split
  · rfl
  · exact if_pos h

variable {port : Byte} (hport : d.fport = some port) (hlen : d.frmLen ≠ 0)
include hport hlen

theorem payloadOf_of_key {key : Block} (hk : k.get (payloadKeySlot ver port) = some key) :
    payloadOf ver k f d = (crypt (slice f d.frmOff d.frmLen) key d.context, 0) := by
  simp only [payloadOf, hport, hlen, hk, if_false]

theorem payloadOf_without_key (hk : k.get (payloadKeySlot ver port) = none) :
    payloadOf ver k f d = (slice f d.frmOff d.frmLen, 1) := by
  simp only [payloadOf, hport, hlen, hk, if_false]

end

/-- The slot of R171 by the value of `VER`. -/
theorem payloadKeySlot_eq {s : State} {ver : Version} (h : verOperand s = .ok ver) (port : Byte) :
    payloadKeySlot ver port = if port ≠ 0 then .appskey
      else if s.ver = some 2 then .nwksenckey else .nwkskey := by
  have h11 := verOperand_is11 h
  by_cases hport : port = 0 <;> cases ver <;> simp_all [payloadKeySlot]

/-- The data frame in `IBUF`. -/
def dataFrame (s : State) : DataFrame := dataFrameOf (direction (frame s)) s.fcnthi (frame s)

theorem dataFrame_context (s : State) : (dataFrame s).context = contextOf s.fcnthi (frame s) := rfl

/-- DECODE of a data frame leaves the registers of R129, with the payload and its flag (R200). -/
theorem exec_decode_dataFrame {s : State} {ver : Version} (hv : verOperand s = .ok ver)
    (hd : isData (frame s)) (hl : 12 + foptslen (frame s) ≤ (frame s).length) :
    ∃ t, exec .decode s = .next t ∧ t.err = 0 ∧
      t.obuf = Memory.ofBytes (payloadOf ver s.keys (frame s) (dataFrame s)).1 ∧
      t.f = { dataFields s.fcnthi (frame s) with
        payEnc := some (payloadOf ver s.keys (frame s) (dataFrame s)).2 } := by
  refine ⟨_, exec_decode_of_frame hv (parseFrame_dataFrame hd hl), rfl, rfl, ?_⟩
  rw [← ofFrame_data _ hl]
  rfl

/-- Settles O31: the parsed frame's payload, key slot and context are those the statement writes out. -/
theorem decodeDecryptsThePayload : Obligations.DecodeDecryptsThePayload := by
  intro s hu hd hl
  obtain ⟨ver, hv⟩ := verOperand_of_usable hu
  obtain ⟨t, ht, herr, hobuf, hf⟩ := exec_decode_dataFrame hv hd hl
  have hlen : (dataFrame s).frmLen = (frame s).length - 13 - foptslen (frame s) :=
    dataFrameOf_frmLen _ _
  refine ⟨t, ht, herr, fun hempty => ?empty, ?payload⟩
  case empty =>
    rw [hobuf, hf, payloadOf_empty (by omega)]
    exact ⟨rfl, rfl⟩
  case payload =>
    rintro hpay _ _ rfl rfl
    have hne : (frame s).length ≠ 12 + foptslen (frame s) := by omega
    have hport : (dataFrame s).fport = some (byteAt (frame s) (8 + foptslen (frame s))) :=
      (dataFrameOf_fport _ _ hl).trans (if_neg hne)
    have hoff : (dataFrame s).frmOff = 9 + foptslen (frame s) :=
      (dataFrameOf_frmOff _ _ hl).trans (if_neg hne)
    have hnonempty : (dataFrame s).frmLen ≠ 0 := by omega
    rw [← payloadKeySlot_eq hv]
    refine ⟨?_, ?_, fun k hk => ?_, fun hk => ?_⟩
    · rw [hf]
      exact congrArg (fun n => some (BitVec.ofNat 9 n)) (if_neg hne)
    · rw [hf, slice_length, Nat.min_eq_left (by omega)]
      rfl
    · rw [hobuf, hf, payloadOf_of_key hport hnonempty hk, hoff, hlen, dataFrame_context]
      exact ⟨rfl, rfl⟩
    · rw [hobuf, hf, payloadOf_without_key hport hnonempty hk, hoff, hlen]
      exact ⟨rfl, rfl⟩

/-! ## O38: a command issued twice -/

/-- Ending alike a second time changes nothing: the error's sticky bit is set already (R25, R203). -/
theorem State.conclude_conclude (s : State) (e : Option ErrCode) :
    (s.conclude e).conclude e = s.conclude e := by
  cases e with
  | none => rfl
  | some e => simp only [State.conclude, State.raise, BitVec.or_assoc, BitVec.or_self]

/-- Installing the same session keys again changes nothing. -/
theorem KeyFile.install_install (k : KeyFile) (new : SessionKeys) :
    (k.install new).install new = k.install new := by
  cases new <;> rfl

/-- Doing the same write again, with the command ended in between, changes nothing. -/
theorem Write.apply_conclude_apply {w : Write} (hw : w ≠ .reset) (s : State) (e : Option ErrCode) :
    w.apply ((w.apply s).conclude e) = (w.apply s).conclude e := by
  cases w with
  | reset => exact absurd rfl hw
  | keys k =>
    cases e <;> simp only [Write.apply, State.conclude, State.succeed, State.raise, State.setKeys,
      KeyFile.install_install]
  | _ => cases e <;> rfl

theorem Report.apply_apply {r : Report} (hr : r.write ≠ .reset) (s : State) :
    r.apply (r.apply s) = r.apply s := by
  rw [Report.apply, Report.apply, Write.apply_conclude_apply hr, State.conclude_conclude]

/-- But for CLR, what a command leaves differs from the state before in key slots and results alone. -/
theorem Report.apply_eq_withResultsOf {r : Report} (hr : r.write ≠ .reset) (s : State) :
    r.apply s = withResultsOf (s.setKeys (r.apply s).keys) (r.apply s) := by
  obtain ⟨write, error⟩ := r
  cases write with
  | reset => exact absurd rfl hr
  | _ => cases error <;> rfl

/-- A derivation writes no slot that it reads (R203). -/
theorem rootKeys_install (ver : Version) (k : KeyFile) (new : SessionKeys) :
    rootKeys ver (k.install new) = rootKeys ver k := by
  cases new <;> rfl

/-- The keys a derivation installs do not change the report of a derivation. -/
theorem report_setKeys_install {i : Instr} {k : SessionKeys} (hi : Writes i (.keys k)) (s : State) :
    report i (s.setKeys (s.keys.install k)) = report i s := by
  cases hi with
  | kdf =>
    have hresult : kdfResult (s.setKeys (s.keys.install k)) = kdfResult s := by
      simp only [kdfResult, State.setKeys_keys, rootKeys_install]
      rfl
    rw [report, report, hresult]
  | derive =>
    have hresult : deriveResult (s.setKeys (s.keys.install k)) = deriveResult s := by
      simp only [deriveResult, State.setKeys_keys, rootKeys_install]
      rfl
    rw [report, report, hresult]

/-- A command other than CLR reports at the state it leaves what it reported before (R27, R203). -/
theorem report_report_apply {i : Instr} (hi : i ≠ .clr) (s : State) :
    report i ((report i s).apply s) = report i s := by
  have hr := report_write_ne_reset hi s
  rw [Report.apply_eq_withResultsOf hr, report_withResultsOf, Report.apply, State.conclude_keys]
  obtain hw | ⟨k, hw⟩ | hw := (report i s).write.apply_keys s
  · exact absurd hw hr
  · have hwrites : Writes i (.keys k) := hw ▸ report_writes i s
    rw [hw]
    exact report_setKeys_install hwrites s
  · rw [hw]
    rfl

/-- Settles O38: CLR clears a cleared state; any other command reports the same again, and the same
report again changes nothing. -/
theorem everyCommandIsIdempotent : Obligations.EveryCommandIsIdempotent := by
  intro i s t h
  obtain rfl := exec_next h
  by_cases hi : i = .clr
  · subst hi
    rfl
  · rw [exec_eq, report_report_apply hi, Report.apply_apply (report_write_ne_reset hi s)]

end Sys2Proof.Machine
end

/-! # The families `60_exceptions.md` and `70_reset_and_hazards.md`: errors of commands, and reset

A command's report names its outcome, so the code in `ERR` is read off the report, and what an error clears
is the one write that the command's failing reports carry. -/

section
namespace Sys2Proof.Machine

open Sys2Proof.Stated

/-! ## Recording an outcome -/

/-- Code 0 is no error (R210). -/
theorem ErrCode.code_ne_zero (e : ErrCode) : e.code ≠ 0 := by
  cases e <;> decide

@[simp] theorem State.conclude_some_err (s : State) (e : ErrCode) : (s.conclude (some e)).err = e.code :=
  rfl

/-- Taking an error is recording its code (R216 item 1). -/
theorem State.conclude_some (s : State) (e : ErrCode) : s.conclude (some e) = failed s e.code := rfl

/-- `ERRACC` collects the code that ends up in `ERR` (R25, R210). -/
theorem State.conclude_erracc (s : State) (e : Option ErrCode) :
    (s.conclude e).erracc = if (s.conclude e).err = 0 then s.erracc
      else s.erracc ||| (1#8 <<< (s.conclude e).err.toNat) := by
  cases e with
  | none => rfl
  | some e =>
    rw [State.conclude_some_err, if_neg e.code_ne_zero]
    rfl

/-- A command's code is the one its report names, whatever it writes. -/
theorem Report.apply_err_cases (r : Report) (s : State) :
    (r.error = none ∧ (r.apply s).err = 0) ∨
      (∃ e, r.error = some e ∧ (r.apply s).err = e.code) := by
  obtain ⟨write, error⟩ := r
  cases error with
  | none => exact .inl ⟨rfl, rfl⟩
  | some e => exact .inr ⟨e, rfl, rfl⟩

/-- No write but reset touches the sticky codes. -/
theorem Write.apply_erracc {w : Write} (hw : w ≠ .reset) (s : State) :
    (w.apply s).erracc = s.erracc := by
  cases w with
  | reset => exact absurd rfl hw
  | _ => rfl

/-! ## O32, O33: every command completes, with 0 or a code of its own -/

/-- Settles O32: every command has a report, and the report's outcome is what `ERR` and `ERRACC` record. -/
theorem everyCommandCompletesAndRecordsItsOutcome :
    Obligations.EveryCommandCompletesAndRecordsItsOutcome := by
  refine fun i s => ⟨_, exec_eq i s, fun hi => ?_⟩
  rw [Report.apply, State.conclude_erracc, Write.apply_erracc (report_write_ne_reset hi s)]

/-- The errors of the reports are the codes of the table (R210, column "raised by"). -/
theorem mayRaise_eq_map_errorsOf (i : Instr) : mayRaise i = (errorsOf i).map ErrCode.code := by
  cases i <;> rfl

/-- Settles O33: a report names no error that is not the command's. -/
theorem commandsRaiseOnlyTheirCodes : Obligations.CommandsRaiseOnlyTheirCodes := by
  intro i s t h
  rw [exec_next h]
  obtain ⟨-, herr⟩ | ⟨e, he, herr⟩ := (report i s).apply_err_cases s <;> rw [herr]
  · exact .inl rfl
  · rw [mayRaise_eq_map_errorsOf]
    exact .inr (List.mem_map_of_mem (report_error_mem he))

/-! ## O34: what an error clears -/

/-- A computation that fails makes the write that clears. -/
theorem Report.of_write_of_error {α : Type} {x : Except ErrCode α} {d : α → Write} {c : Write}
    {e : ErrCode} (h : (Report.of x d c).error = some e) : (Report.of x d c).write = c := by
  cases x with
  | ok a => cases h
  | error _ => rfl

/-- The `F_*` registers after PARSE or DECODE ends with a code (R133, R216; log entry 11). -/
def fieldsAfterError (s : State) (e : ErrCode) : Fields :=
  if e.code = 2 then malformedFields (frame s) else Fields.empty

/-- When PARSE fails, DECODE fails with it, and the code says what `F_*` registers both leave. -/
theorem reports_of_parse_error {s : State} {e : ErrCode} (h : (parseReport s).error = some e) :
    (parseReport s).write = .parsed (fieldsAfterError s e) [] ∧
      (decodeReport s).write = .decoded (fieldsAfterError s e) [] MicRegs.empty := by
  by_cases hu : usable s.ver
  · by_cases hm : malformed (frame s)
    · obtain ⟨hp, hd⟩ := reports_of_malformed hu hm
      rw [hp] at h ⊢
      rw [hd]
      cases h
      exact ⟨rfl, rfl⟩
    · -- a frame with a layout parses, and then there is no error
      obtain ⟨ver, hv⟩ := verOperand_of_usable hu
      obtain ⟨b, hb⟩ := parseFrame_of_not_malformed hm
      have hin : parseInput ver s = .frame _ b := hb
      rw [parseReport, hv] at h
      dsimp only at h
      rw [hin] at h
      cases h
  · obtain ⟨hp, hd⟩ := reports_of_not_usable hu
    rw [hp] at h ⊢
    rw [hd]
    cases h
    exact ⟨rfl, rfl⟩

/-- A command that reports an error writes what R216 says it clears, and nothing else. -/
theorem report_write_apply_of_error {i : Instr} {s : State} {e : ErrCode}
    (h : (report i s).error = some e) : (report i s).write.apply s = cleared i s e.code := by
  cases i with
  | nop | clr => cases h
  | parse =>
    rw [report, (reports_of_parse_error h).1]
    rfl
  | decode =>
    rw [report, decodeReport_error] at h
    rw [report, (reports_of_parse_error h).2]
    rfl
  | aesenc | cmac | xbits | kdf | derive | kstream | crypt | cmic | vmic =>
    rw [report, Report.of_write_of_error h]
    rfl

/-- Settles O34: the state is the one before with the clearing write done and the code recorded. -/
theorem errorsClearExactlyTheCommandsResults : Obligations.ErrorsClearExactlyTheCommandsResults := by
  intro i s t h hne
  obtain rfl := exec_next h
  obtain ⟨-, h0⟩ | ⟨e, he, herr⟩ := (report i s).apply_err_cases s
  · exact absurd h0 hne
  · calc (report i s).apply s
        = ((report i s).write.apply s).conclude (some e) := by rw [Report.apply, he]
      _ = failed (cleared i s e.code) e.code := by
          rw [report_write_apply_of_error he, State.conclude_some]
      _ = failed (cleared i s ((report i s).apply s).err) ((report i s).apply s).err := by rw [herr]

/-! ## O44: reset -/

/-- Settles O44: the next action is performed, and reset clears. -/
theorem resetEventRestoresTheResetState : Obligations.ResetEventRestoresTheResetState :=
  fun _ _ h => step_of_inbox h

end Sys2Proof.Machine
end
